-- ==== Sys2Proof/Word.lean ====
section
/-! DEFINITION. The word types of the codec block (00_scope.md R10). -/

namespace Sys2Proof

/-- `u8` of R10, and the pattern of an `i8`: one cell of every byte-addressed space (R50). -/
abbrev Byte := BitVec 8

/-- `u16` of R10, and the pattern of an `i16`. -/
abbrev U16 := BitVec 16

/-- `u32` of R10. -/
abbrev U32 := BitVec 32

end Sys2Proof
end

