-- ==== Sys2Proof/Config.lean ====
section
/-! DEFINITION. The implementation parameters of R7, their constraints (R8), the JSON capability that R7 leaves OPEN,
and the one free value of the host port. -/

namespace Sys2Proof

/-- `HB_ENC_MODE` of R7: which Heartbeat encoder the block has (R189, R190). -/
inductive HbEncMode where
  | symmetric
  | legacyDup
deriving DecidableEq, Repr

/-- The plain-data parameters of R7. A configuration is fixed before the first host operation and no operation
changes it. -/
structure Config where
  /-- `BUF_CAP`, the capacity of the scratch buffer and of the output buffer. -/
  bufCap : Nat
  /-- `SAR_MAX_LEN`, the cap on the length `SET_SAR` gives a JSON text. -/
  sarMaxLen : Nat
  /-- `HB_LEN`, the length of a Heartbeat payload. -/
  hbLen : Nat
  /-- `HB_ENC_MODE`. -/
  hbEncMode : HbEncMode
  /-- `SAR_PARSE_LIMIT`, the longest SetSarMode payload the parser accepts. -/
  sarParseLimit : Nat
deriving DecidableEq, Repr

/-- The column "value for this hardware" of R7's table. -/
def Config.hardware : Config :=
  { bufCap := 1024, sarMaxLen := 256, hbLen := 15, hbEncMode := .symmetric, sarParseLimit := 1012 }

/-- The constraints of R8, which the configuration must satisfy. A step refuses a configuration that breaks one.
(The last constraint of R8, that the JSON capability is total and deterministic, holds by its type.) -/
def Config.wf (c : Config) : Bool :=
  decide (12 ≤ c.hbLen) && decide (c.hbLen ≤ c.bufCap - 12) &&
    decide (c.sarParseLimit ≤ c.bufCap - 12) && decide (1 ≤ c.bufCap - 12)

/-- DEDUCED (log entry 3): what R31's bound `12 + max(SAR_MAX_LEN, ...) <= BUF_CAP` and the 16-bit width of `PLEN`
(R25) need of a configuration and R8 does not list. The hardware's values satisfy it. -/
def Config.fits (c : Config) : Bool :=
  decide (c.sarMaxLen + 12 ≤ c.bufCap) && decide (c.bufCap ≤ 65535 + 12)

/-- DESIGN CHOICE (log entry 4): `JsonDoc` of R7, whose type the spec leaves OPEN. A document is a handle that only
`Config.jsonParse` and `Config.jsonRender` give meaning to. -/
structure JsonDoc where
  handle : Nat
deriving DecidableEq, Repr

/-- `JsonParse` of R7, OPEN: total and deterministic (R8), nothing else is known of it (R9). -/
opaque Config.jsonParse : List Byte → Option JsonDoc

/-- `JsonRender` of R7, OPEN: total and deterministic (R8), nothing else is known of it (R9). -/
opaque Config.jsonRender : JsonDoc → List Byte

/-- A free value (log entry 8): whether a `SET_SAR` presence byte other than 0x00 and 0x01 reads as present. R85 and R86
give the two values only. -/
opaque Config.sarPresence : Byte → Bool

end Sys2Proof
end

