-- ==== Sys2Proof/Syntax.lean ====
section
/-! DEFINITION. The instructions: the 22 host operations of R85 and the three frame commands of R77, one constructor for
each row of opcode_table.json, and the abstract syntax of the assembler lines of R88. -/

namespace Sys2Proof

/-- One row of the opcode table each. A host operation carries the typed operands of R85 (an `i16` or `i8` as its
two's-complement pattern). A frame command carries none: its operand is the payload that stands in the scratch buffer
(R181, R185, R188). -/
inductive Instr where
  /-- 0x01, R120. -/
  | pushByte (b : Byte)
  /-- 0x02, R140: `none` is the absent operand. -/
  | feed (bs : Option (List Byte))
  /-- 0x10, R200. -/
  | setProps (v : U16)
  /-- 0x11, R201. -/
  | setCmd (c : U16)
  /-- 0x12, R202: `none` is the absent document. -/
  | setSar (d : Option JsonDoc)
  /-- 0x13, R203. -/
  | setStandby (f : Bool)
  /-- 0x14, R204: epoch, serial, voltage, temperature, mode. -/
  | setHeartbeat (e s : U32) (v : U16) (t m : Byte)
  /-- 0x20, R160. -/
  | serialize
  /-- 0x21, R170. -/
  | getOut
  /-- 0x30, R207. -/
  | getProps
  /-- 0x31, R208. -/
  | getPriority
  /-- 0x32, R209. -/
  | getAck
  /-- 0x33, R210. -/
  | getVersion
  /-- 0x34, R211. -/
  | getReserved
  /-- 0x35, R212. -/
  | getCmd
  /-- 0x36, R213. -/
  | getLen
  /-- 0x37, R214. -/
  | getSar
  /-- 0x38, R215. -/
  | getSarText
  /-- 0x39, R216. -/
  | getStandby
  /-- 0x3A, R217. -/
  | getHeartbeat
  /-- 0x3B, R218. -/
  | getStatus
  /-- 0xFF, R260. -/
  | reset
  /-- Frame command 0xFF03, R181. -/
  | setSarMode
  /-- Frame command 0xFF05, R185. -/
  | setStandbyState
  /-- Frame command 0xFF08, R188. -/
  | heartbeat
deriving DecidableEq, Repr

/-- The mnemonics of R85, as the assembler lines of R88 write them. -/
inductive Mnemonic where
  | pushByte | feed | setProps | setCmd | setSar | setStandby | setHeartbeat | serialize | getOut
  | getProps | getPriority | getAck | getVersion | getReserved | getCmd | getLen | getSar | getSarText
  | getStandby | getHeartbeat | getStatus | reset
deriving DecidableEq, Repr

/-- The operand of an assembler line (R88). -/
inductive AsmOperand where
  /-- The line has no operand. -/
  | omitted
  /-- `number`. -/
  | number (n : Int)
  /-- `"true"` or `"false"`. -/
  | bool (b : Bool)
  /-- `bytes`; a `frame` expression is the byte string R89 gives for it. -/
  | bytes (bs : List Byte)
  /-- `json`, by its JSON text. -/
  | json (text : List Byte)
  /-- `record`. -/
  | record (e s v t m : Int)
  /-- `"none"`. -/
  | noneWord
deriving DecidableEq, Repr

/-- One line of an assembler program (R88), without its result and its comment, which encode to nothing. -/
structure AsmLine where
  mnemonic : Mnemonic
  operand : AsmOperand
deriving DecidableEq, Repr

end Sys2Proof
end

