-- ==== Sys2Proof/Machine/Operands.lean ====
section
/-! DEFINITION. The operand forms: little-endian assembly (R12, R84), signed reinterpretation (R13), the named constants
(R15), the bit fields of the properties (R74), and fixed-size byte fields. -/

namespace Sys2Proof.Machine

/-- `LE16` of R12: the least significant byte first. -/
def le16 (v : U16) : List Byte :=
  [v.extractLsb' 0 8, v.extractLsb' 8 8]

/-- `LE32` of R12. -/
def le32 (v : U32) : List Byte :=
  [v.extractLsb' 0 8, v.extractLsb' 8 8, v.extractLsb' 16 8, v.extractLsb' 24 8]

/-- Byte `i` of a byte string (R11). Past its end it reads 0; no rule reads there. -/
def byteAt (bs : List Byte) (i : Nat) : Byte :=
  bs.getD i 0#8

/-- `rd16` of R12. -/
def rd16 (bs : List Byte) (o : Nat) : U16 :=
  (byteAt bs o).setWidth 16 ||| (byteAt bs (o + 1)).setWidth 16 <<< 8

/-- `rd32` of R12. -/
def rd32 (bs : List Byte) (o : Nat) : U32 :=
  (byteAt bs o).setWidth 32 ||| (byteAt bs (o + 1)).setWidth 32 <<< 8 |||
    (byteAt bs (o + 2)).setWidth 32 <<< 16 ||| (byteAt bs (o + 3)).setWidth 32 <<< 24

/-- `s16` of R13: a u16 pattern read as an i16. -/
def s16 (v : U16) : Int :=
  v.toInt

/-- `s8` of R13: a u8 pattern read as an i8. -/
def s8 (v : Byte) : Int :=
  v.toInt

/-- `bits16` of R13: the two's-complement pattern of an i16. -/
def bits16 (x : Int) : U16 :=
  BitVec.ofInt 16 x

/-- `bits8` of R13: the two's-complement pattern of an i8. -/
def bits8 (x : Int) : Byte :=
  BitVec.ofInt 8 x

/-- `SIG` of R15 and R71, the ASCII character 'T'. -/
def sig : Byte := 0x54#8

/-- `CMD_SAR` of R15, SetSarMode. -/
def cmdSar : U16 := 0xFF03#16

/-- `CMD_STBY` of R15, SetStandbyState. -/
def cmdStby : U16 := 0xFF05#16

/-- `CMD_HB` of R15, Heartbeat. -/
def cmdHb : U16 := 0xFF08#16

/-- `priority` of R74: `PROPS[3:0]`. -/
def propPriority (p : U16) : BitVec 4 :=
  p.extractLsb' 0 4

/-- `ackDesignation` of R74: `PROPS[5:4]`. -/
def propAck (p : U16) : BitVec 2 :=
  p.extractLsb' 4 2

/-- `version` of R74: `PROPS[13:6]`. -/
def propVersion (p : U16) : BitVec 8 :=
  p.extractLsb' 6 8

/-- `reserved` of R74: `PROPS[15:14]`. -/
def propReserved (p : U16) : BitVec 2 :=
  p.extractLsb' 14 2

/-- R74's packing of the four fields into `properties`. -/
def packProps (priority : BitVec 4) (ack : BitVec 2) (version : BitVec 8) (reserved : BitVec 2) : U16 :=
  priority.setWidth 16 ||| ack.setWidth 16 <<< 4 ||| version.setWidth 16 <<< 6 ||| reserved.setWidth 16 <<< 14

/-- `take(n, s) ‖ 0^(n - min(n, |s|))`: a byte string cut or zero-filled to exactly `n` bytes (R182, R189, R190). -/
def fitTo (n : Nat) (bs : List Byte) : List Byte :=
  bs.take n ++ List.replicate (n - bs.length) 0#8

end Sys2Proof.Machine
end

