-- ==== Sys2Proof/Machine/State.lean ====
section
/-! DEFINITION. The state of the block (R20): the parser state, the message register file, the output buffer, the status
and fault registers; and, beside them, what the model itself holds: the configuration, the host port and the last
result. -/

namespace Sys2Proof.Machine

/-- A byte-addressed space (R50) as (address, byte) pairs: addresses strictly rising, no pair whose byte is 0, which is
what an unlisted address reads as (log entry 1). -/
abbrev Memory := List Host.Cell

/-- The canonical form of a memory whose addresses are at least `lo`. -/
def Memory.wfFrom (lo : Nat) : Memory → Bool
  | [] => true
  | c :: m => decide (lo ≤ c.1) && decide (c.2 ≠ 0#8) && Memory.wfFrom (c.1 + 1) m

/-- The canonical form: addresses strictly rising, no pair that an unlisted address would read as. -/
def Memory.wf (m : Memory) : Bool :=
  Memory.wfFrom 0 m

/-- `MSG_STATE` (R29). -/
inductive MsgState where
  | empty
  | building
  | valid
  | contentInvalid
deriving DecidableEq, Repr

/-- The 2-bit value of `MSG_STATE` in R29's table. -/
def MsgState.code : MsgState → BitVec 2
  | .empty => 0#2
  | .building => 1#2
  | .valid => 2#2
  | .contentInvalid => 3#2

/-- `TAG` (R27): the active payload arm. -/
inductive Tag where
  | none
  | sar
  | stby
  | hb
deriving DecidableEq, Repr

/-- The 2-bit value of `TAG` in R27. -/
def Tag.code : Tag → BitVec 2
  | .none => 0#2
  | .sar => 1#2
  | .stby => 2#2
  | .hb => 3#2

/-- The Heartbeat arm's registers (R26). -/
structure HbRecord where
  /-- `HB_EPOCH`, u32. -/
  epoch : U32
  /-- `HB_SERIAL`, u32. -/
  serial : U32
  /-- `HB_VOLT`, i16, by its two's-complement pattern. -/
  volt : U16
  /-- `HB_TEMP`, i8, by its two's-complement pattern. -/
  temp : Byte
  /-- `HB_MODE`, u8. -/
  mode : Byte
deriving DecidableEq, Repr

/-- The parser state (R22 to R24). -/
structure ParserRegs where
  /-- `idx` (R22): the number of bytes of the current frame held in `SB`. -/
  idx : Nat
  /-- `SB` (R23): the scratch buffer. -/
  sb : Memory
  /-- `CAP_HCK` (R24). -/
  capHck : U16
  /-- `CAP_PCK` (R24). -/
  capPck : U16
  /-- `CAP_PROPS` (R24). -/
  capProps : U16
  /-- `CAP_CMD` (R24). -/
  capCmd : U16
  /-- `CAP_LEN` (R24). -/
  capLen : U16
deriving DecidableEq, Repr

/-- The message register file MSG (R25 to R29). -/
structure MsgRegs where
  /-- `MSG_STATE` (R29). -/
  state : MsgState
  /-- `PROPS_W` (R28). -/
  propsW : Bool
  /-- `CMD_W` (R28). -/
  cmdW : Bool
  /-- `TAG` (R27). -/
  tag : Tag
  /-- `PROPS` (R25), all 16 bits. -/
  props : U16
  /-- `CMD` (R25). -/
  cmd : U16
  /-- `PLEN` (R25). -/
  plen : U16
  /-- `SAR_DOC` (R26). -/
  sarDoc : JsonDoc
  /-- `STBY` (R26). -/
  stby : Bool
  /-- `HB_EPOCH`, `HB_SERIAL`, `HB_VOLT`, `HB_TEMP`, `HB_MODE` (R26). -/
  hb : HbRecord
deriving DecidableEq, Repr

/-- The output buffer (R31). -/
structure OutRegs where
  /-- `OB`: its addresses are `0 .. OUT_LEN - 1` (R50). -/
  ob : Memory
  /-- `OUT_LEN`. -/
  outLen : Nat
  /-- `OUT_VALID`. -/
  outValid : Bool
deriving DecidableEq, Repr

/-- What a host operation returns to the host (the column "result" of R85). -/
inductive HostResult where
  /-- No value. -/
  | none
  /-- `PUSH_BYTE`: the status word (R33). -/
  | status (st : Byte)
  /-- `FEED` (R140). -/
  | feed (found : Bool) (consumed : Nat) (remainder : List Byte) (diag : Byte)
  /-- `SERIALIZE`, `GET_OUT`: `(OB, OUT_LEN)`. -/
  | output (bytes : List Byte) (len : Nat)
  /-- `GET_PROPS`, `GET_CMD`, `GET_LEN`. -/
  | word (v : U16)
  /-- `GET_PRIORITY`. -/
  | priority (v : BitVec 4)
  /-- `GET_ACK`. -/
  | ack (v : BitVec 2)
  /-- `GET_VERSION`. -/
  | version (v : BitVec 8)
  /-- `GET_RESERVED`. -/
  | reserved (v : BitVec 2)
  /-- `GET_SAR`. -/
  | document (d : JsonDoc)
  /-- `GET_SAR_TEXT`. -/
  | text (bs : List Byte)
  /-- `GET_STANDBY`. -/
  | flag (f : Bool)
  /-- `GET_HEARTBEAT` (R217), with the voltage an i16 and the temperature an i8. -/
  | heartbeat (e s : U32) (v t : Int) (m : Byte)
  /-- `GET_STATUS`: `(LAST_STATUS, MSG_STATE, FAULT)`. -/
  | blockStatus (lastStatus : Byte) (state : MsgState) (fault : Byte)
  /-- The operation faulted (R235). -/
  | faulted
  /-- The operation was refused while `FAULT != 0` (R236). -/
  | refused
deriving DecidableEq, Repr

/-- What stops the machine. The block's own caller-contract violations are no faults of this kind: they are next states
with the register `FAULT` written (R235). -/
inductive Fault where
  /-- Raised by `PUSH_BYTE` and `FEED`: a byte to store at an `idx` that is no address of `SB` (R50). R146 says that no
  run reaches such a state. Safe. -/
  | scratchAddress
  /-- Raised by `SERIALIZE`: a frame longer than `BUF_CAP`, which `OB` has no addresses for (R31). R31 says that no run
  reaches such a state. Safe. -/
  | outputAddress
deriving DecidableEq, Repr

/-- Why there is no meaning. -/
inductive Refusal where
  /-- Raised by `exec`'s arm of an instruction that has no meaning yet; no arm does. Safe. -/
  | notModelled (mnemonic : String)
  /-- Raised by `step` when the configuration breaks a constraint of R8, which says that a model refuses it. Safe. -/
  | badConfiguration
deriving DecidableEq, Repr

/-- The state: R20's tuple, and the model's own four fields (`cfg`, `port`, `docs`, `ret`). -/
structure State where
  /-- The model's own (log entry 2): the configuration of R7. No operation writes it. -/
  cfg : Config
  /-- The model's own (log entry 5): the host-port bytes of the operations the host has issued and the block has not
  yet taken. -/
  port : List Byte
  /-- The model's own (log entry 5): the documents handed over outside the port for them (R85), in order. -/
  docs : List JsonDoc
  /-- The model's own (log entry 6): what the last operation returned to the host. -/
  ret : HostResult
  /-- `idx`, `SB`, `CAP_*`. -/
  parser : ParserRegs
  /-- `MSG_STATE`, `PROPS_W`, `CMD_W`, `TAG`, `PROPS`, `CMD`, `PLEN` and the payload registers. -/
  msg : MsgRegs
  /-- `OB`, `OUT_LEN`, `OUT_VALID`. -/
  out : OutRegs
  /-- `LAST_STATUS` (R32). -/
  lastStatus : Byte
  /-- `FAULT` (R34). -/
  fault : Byte
deriving DecidableEq, Repr

/-- R35: every element at its reset value. An element R35 gives "no value" holds the value log entry 7 names. -/
def State.reset : State :=
  { cfg := Config.hardware
    port := []
    docs := []
    ret := .none
    parser := { idx := 0, sb := [], capHck := 0#16, capPck := 0#16, capProps := 0#16, capCmd := 0#16, capLen := 0#16 }
    msg :=
      { state := .empty, propsW := false, cmdW := false, tag := .none, props := 0#16, cmd := 0#16, plen := 0#16
        sarDoc := { handle := 0 }, stby := false
        hb := { epoch := 0#32, serial := 0#32, volt := 0#16, temp := 0#8, mode := 0#8 } }
    out := { ob := [], outLen := 0, outValid := false }
    lastStatus := 0x00#8
    fault := 0x00#8 }

end Sys2Proof.Machine
end

