-- ==== Sys2Proof/Machine/Flags.lean ====
section
/-! DEFINITION. The conditions behind the status bits (R33, R231): the status masks, the fault codes, the checksum, the
variant of a command code and the length rule. -/

namespace Sys2Proof.Machine

/-- `DONE` of R33. -/
def stDone : Byte := 0x01#8

/-- `E_SIG` of R33. -/
def stSig : Byte := 0x02#8

/-- `E_CMD` of R33. -/
def stCmd : Byte := 0x04#8

/-- `E_LEN` of R33. -/
def stLen : Byte := 0x08#8

/-- `E_HCK` of R33. -/
def stHck : Byte := 0x10#8

/-- `E_PCK` of R33. -/
def stPck : Byte := 0x20#8

/-- `E_CONTENT` of R33. -/
def stContent : Byte := 0x40#8

/-- `REFUSED` of R33. -/
def stRefused : Byte := 0x80#8

/-- `ILLEGAL_OP` of R234. -/
def faultIllegalOp : Byte := 1#8

/-- `UNKNOWN_CMD_SET` of R234. -/
def faultUnknownCmd : Byte := 2#8

/-- `VARIANT_MISMATCH` of R234. -/
def faultVariant : Byte := 3#8

/-- `READ_UNAVAILABLE` of R234. -/
def faultRead : Byte := 4#8

/-- `SERIALIZE_INCOMPLETE` of R234. -/
def faultSerialize : Byte := 5#8

/-- `NULL_OPERAND` of R234. -/
def faultNull : Byte := 6#8

/-- `cksum16` of R110: the sum of the bytes as unsigned numbers, modulo 2^16. -/
def cksum16 (bs : List Byte) : U16 :=
  BitVec.ofNat 16 (bs.map BitVec.toNat).sum

/-- `variantOf` of R15 and R180; `none` for a code outside `KNOWN`. -/
def variantOf (c : U16) : Tag :=
  if c = cmdSar then .sar else if c = cmdStby then .stby else if c = cmdHb then .hb else .none

/-- `c ∈ KNOWN` (R15). -/
def known (c : U16) : Bool :=
  decide (variantOf c ≠ .none)

/-- `lenBad` of R120: whether a payload length breaks the rule of the command's variant (R129). -/
def lenBad (cfg : Config) (c len : U16) : Bool :=
  match variantOf c with
  | .sar => decide (len.toNat > cfg.sarParseLimit)
  | .stby => decide (len.toNat ≠ 1)
  | .hb => decide (len.toNat ≠ cfg.hbLen)
  | .none => false

/-- The status bits of the byte that brings `idx` to 12 (R129, R130): both tests are made, whichever fails. -/
def headerStatus (cfg : Config) (c len hck : U16) (header : List Byte) : Byte :=
  (if lenBad cfg c len then stLen else 0x00#8) ||| (if cksum16 header ≠ hck then stHck else 0x00#8)

end Sys2Proof.Machine
end

