-- ==== Sys2Proof/Machine/Ops.lean ====
section
/-! DEFINITION. The named operations over memory and registers: reading and writing a byte-addressed space, returning a
result, taking a fault (R235), refusing an operation (R236), leaving the fault state (R237), clearing the message
(R122) and ending a byte (R136). -/

namespace Sys2Proof.Machine

/-- One byte; an unlisted address reads 0 (log entry 1). -/
def Memory.read (m : Memory) (a : Nat) : Byte :=
  match m with
  | [] => 0#8
  | c :: m => if c.1 = a then c.2 else Memory.read m a

/-- Writes one byte and keeps the canonical form: a 0 removes the entry. -/
def Memory.write (m : Memory) (a : Nat) (v : Byte) : Memory :=
  match m with
  | [] => if v = 0#8 then [] else [(a, v)]
  | c :: m =>
    if a < c.1 then (if v = 0#8 then c :: m else (a, v) :: c :: m)
    else if a = c.1 then (if v = 0#8 then m else (a, v) :: m)
    else c :: Memory.write m a v

/-- The `n` bytes from address `a` on: `[a..a+n)` of R11. -/
def Memory.readRange (m : Memory) (a n : Nat) : List Byte :=
  match n with
  | 0 => []
  | n + 1 => m.read a :: Memory.readRange m (a + 1) n

/-- The memory that holds a byte string from address `a` on and nothing else. -/
def Memory.ofBytes (a : Nat) (bs : List Byte) : Memory :=
  match bs with
  | [] => []
  | b :: bs => if b = 0#8 then Memory.ofBytes (a + 1) bs else (a, b) :: Memory.ofBytes (a + 1) bs

/-- `MemRead(SB, o, 2)` of R14: a little-endian field at offset `o`. -/
def Memory.rd16 (m : Memory) (o : Nat) : U16 :=
  Sys2Proof.Machine.rd16 (m.readRange o 2) 0

/-- `return r` of R14: ends the operation and gives `r` to the host. -/
def State.returns (s : State) (r : HostResult) : State :=
  { s with ret := r }

/-- TAKING A FAULT, `raise Fault(code)` of R235: `FAULT <- code`, the operation ends, it writes no other state and
returns `faulted`. -/
def State.raiseFault (s : State) (code : Byte) : State :=
  { s with fault := code, ret := .faulted }

/-- LEAVING THE FAULT STATE (R237), which only `RESET` does (R260): every element back at its value of R35. The
configuration is never written (R7), and what the host has not yet had executed is the host's. -/
def State.resetBlock (s : State) : State :=
  { State.reset with cfg := s.cfg, port := s.port, docs := s.docs }

/-- R236: while `FAULT != 0` an operation is refused, changes no state and returns `r`; otherwise it goes on as `t`. -/
def State.unlessFaulted (s : State) (r : HostResult) (t : State) : State :=
  if s.fault ≠ 0x00#8 then s.returns r else t

/-- The form of every accessor of R207 to R217, and of `GET_OUT` (R170): refused while faulted, `READ_UNAVAILABLE` where
the field holds no value, else the value. -/
def State.access (s : State) (available : Bool) (r : HostResult) : State :=
  s.unlessFaulted .refused (if available then s.returns r else s.raiseFault faultRead)

/-- R122: the clear at the start of each `PUSH_BYTE`. -/
def State.clearMsg (s : State) : State :=
  { s with msg := { s.msg with state := .empty, propsW := false, cmdW := false, tag := .none } }

/-- `idx <- i`. -/
def State.setIdx (s : State) (i : Nat) : State :=
  { s with parser := { s.parser with idx := i } }

/-- R136: at the end of a byte, `LAST_STATUS <- st` and `st` is returned. -/
def State.finish (s : State) (st : Byte) : State :=
  { s with lastStatus := st, ret := .status st }

/-- R232: a framing error drops the frame in progress and ends the byte. -/
def State.resync (s : State) (st : Byte) : State :=
  (s.setIdx 0).finish st

/-- R124: `SB[idx] <- b; idx <- idx + 1`. `SB` has the addresses `0 .. BUF_CAP-1` and no other (R50). -/
def State.storeByte (s : State) (b : Byte) : Except Fault State :=
  if s.parser.idx < s.cfg.bufCap then
    .ok { s with parser := { s.parser with sb := s.parser.sb.write s.parser.idx b, idx := s.parser.idx + 1 } }
  else .error .scratchAddress

/-- The payload of the frame in progress: `SB[12..12+CAP_LEN)` (R57). -/
def State.payload (s : State) : List Byte :=
  s.parser.sb.readRange 12 s.parser.capLen.toNat

/-- The fields a setter leaves in MSG: `MSG_STATE <- BUILDING` and no result (R205). -/
def State.building (s : State) (m : MsgRegs) : State :=
  { s with msg := { m with state := .building }, ret := .none }

/-- The outcome of an operation that can meet an address that does not exist. -/
def outcomeOf (r : Except Fault State) : Host.Outcome State Fault Refusal :=
  match r with
  | .ok s => .next s
  | .error f => .fault f

end Sys2Proof.Machine
end

