-- ==== Sys2Proof/Machine/Message.lean ====
section
/-! DEFINITION. The message setters and accessors (44_message_access.md R200 to R217). -/

namespace Sys2Proof.Machine

/-- The state check of the payload setters (R202 to R204): a command code of the variant `t` is set. -/
def State.accepts (s : State) (t : Tag) : Bool :=
  s.msg.cmdW && decide (variantOf s.msg.cmd = t)

/-- R200 `SET_PROPS`: the whole raw value, reserved bits included. -/
def execSetProps (v : U16) (s : State) : Host.Outcome State Fault Refusal :=
  .next (s.unlessFaulted .refused (s.building { s.msg with props := v, propsW := true }))

/-- R201 `SET_CMD`: an unknown code faults; a code of another variant drops the payload. -/
def execSetCmd (c : U16) (s : State) : Host.Outcome State Fault Refusal :=
  .next (s.unlessFaulted .refused
    (if known c = false then s.raiseFault faultUnknownCmd
    else
      s.building
        { s.msg with
          tag := if s.msg.tag ≠ .none ∧ variantOf c ≠ s.msg.tag then .none else s.msg.tag
          cmd := c, cmdW := true }))

/-- R202 `SET_SAR`: the operand check comes before the state check; the document is kept whole, its length capped. -/
def execSetSar (d : Option JsonDoc) (s : State) : Host.Outcome State Fault Refusal :=
  .next (s.unlessFaulted .refused
    (match d with
    | none => s.raiseFault faultNull
    | some doc =>
      if s.accepts .sar then
        s.building
          { s.msg with
            sarDoc := doc, tag := .sar
            plen := BitVec.ofNat 16 (min (Config.jsonRender doc).length s.cfg.sarMaxLen) }
      else s.raiseFault faultVariant))

/-- R203 `SET_STANDBY`. -/
def execSetStandby (f : Bool) (s : State) : Host.Outcome State Fault Refusal :=
  .next (s.unlessFaulted .refused
    (if s.accepts .stby then s.building { s.msg with stby := f, plen := 1#16, tag := .stby }
    else s.raiseFault faultVariant))

/-- R204 `SET_HEARTBEAT`: every operand value is legal. -/
def execSetHeartbeat (e n : U32) (v : U16) (t m : Byte) (s : State) : Host.Outcome State Fault Refusal :=
  .next (s.unlessFaulted .refused
    (if s.accepts .hb then
      s.building
        { s.msg with
          hb := { epoch := e, serial := n, volt := v, temp := t, mode := m }
          plen := BitVec.ofNat 16 s.cfg.hbLen, tag := .hb }
    else s.raiseFault faultVariant))

/-- R207 `GET_PROPS`. -/
def execGetProps (s : State) : Host.Outcome State Fault Refusal :=
  .next (s.access s.msg.propsW (.word s.msg.props))

/-- R208 `GET_PRIORITY`. -/
def execGetPriority (s : State) : Host.Outcome State Fault Refusal :=
  .next (s.access s.msg.propsW (.priority (propPriority s.msg.props)))

/-- R209 `GET_ACK`. -/
def execGetAck (s : State) : Host.Outcome State Fault Refusal :=
  .next (s.access s.msg.propsW (.ack (propAck s.msg.props)))

/-- R210 `GET_VERSION`. -/
def execGetVersion (s : State) : Host.Outcome State Fault Refusal :=
  .next (s.access s.msg.propsW (.version (propVersion s.msg.props)))

/-- R211 `GET_RESERVED`. -/
def execGetReserved (s : State) : Host.Outcome State Fault Refusal :=
  .next (s.access s.msg.propsW (.reserved (propReserved s.msg.props)))

/-- R212 `GET_CMD`. -/
def execGetCmd (s : State) : Host.Outcome State Fault Refusal :=
  .next (s.access s.msg.cmdW (.word s.msg.cmd))

/-- R213 `GET_LEN`: available when a payload is set (R206). -/
def execGetLen (s : State) : Host.Outcome State Fault Refusal :=
  .next (s.access (decide (s.msg.tag ≠ .none)) (.word s.msg.plen))

/-- R214 `GET_SAR`. -/
def execGetSar (s : State) : Host.Outcome State Fault Refusal :=
  .next (s.access (decide (s.msg.tag = .sar)) (.document s.msg.sarDoc))

/-- R215 `GET_SAR_TEXT`: the full compact text, not capped. -/
def execGetSarText (s : State) : Host.Outcome State Fault Refusal :=
  .next (s.access (decide (s.msg.tag = .sar)) (.text (Config.jsonRender s.msg.sarDoc)))

/-- R216 `GET_STANDBY`. -/
def execGetStandby (s : State) : Host.Outcome State Fault Refusal :=
  .next (s.access (decide (s.msg.tag = .stby)) (.flag s.msg.stby))

/-- R217 `GET_HEARTBEAT`: the voltage as an i16 and the temperature as an i8. -/
def execGetHeartbeat (s : State) : Host.Outcome State Fault Refusal :=
  .next (s.access (decide (s.msg.tag = .hb))
    (.heartbeat s.msg.hb.epoch s.msg.hb.serial (s16 s.msg.hb.volt) (s8 s.msg.hb.temp) s.msg.hb.mode))

end Sys2Proof.Machine
end

