-- ==== Sys2Proof/Machine/Variants.lean ====
section
/-! DEFINITION. The payload variants (43_payload_variants.md): decoding and committing a frame of each of the three frame
commands, and encoding each payload. -/

namespace Sys2Proof.Machine

/-- R133: the commit of a frame whose payload decoded. `m` holds the decoded arm. -/
def State.commit (s : State) (t : Tag) (m : MsgRegs) : State :=
  State.finish
    { s with
      msg :=
        { m with
          props := s.parser.capProps, cmd := s.parser.capCmd, plen := s.parser.capLen
          propsW := true, cmdW := true, tag := t, state := .valid } }
    stDone

/-- R134, R233: the content error of a frame whose payload failed to decode. -/
def State.contentError (s : State) : State :=
  State.finish { s with msg := { s.msg with state := .contentInvalid } } stContent

/-- R181: the SAR payload is JSON text, decided by `JsonParse` alone. -/
def State.decodeSar (s : State) (pay : List Byte) : State :=
  match Config.jsonParse pay with
  | none => s.contentError
  | some d => s.commit .sar { s.msg with sarDoc := d }

/-- R185: 0x00 is false and every other value is true. -/
def State.decodeStby (s : State) (pay : List Byte) : State :=
  s.commit .stby { s.msg with stby := byteAt pay 0 != 0x00#8 }

/-- R188: the record at the offsets of R81. The bytes from offset 12 on are ignored. -/
def hbDecode (pay : List Byte) : HbRecord :=
  { epoch := rd32 pay 0, serial := rd32 pay 4, volt := rd16 pay 8, temp := byteAt pay 10, mode := byteAt pay 11 }

/-- R188: every byte pattern decodes. -/
def State.decodeHb (s : State) (pay : List Byte) : State :=
  s.commit .hb { s.msg with hb := hbDecode pay }

/-- R182: the compact text, at most `PLEN` bytes of it, zero-filled to `PLEN`. -/
def sarEncode (d : JsonDoc) (plen : Nat) : List Byte :=
  fitTo plen (Config.jsonRender d)

/-- R186: one byte, 0 or 1. -/
def stbyEncode (f : Bool) : List Byte :=
  [if f then 0x01#8 else 0x00#8]

/-- The field bytes in the documented order (R189). -/
def hbFieldsSymmetric (r : HbRecord) : List Byte :=
  le32 r.epoch ++ le32 r.serial ++ le16 r.volt ++ [r.temp, r.mode]

/-- The sequence `seq` of R190, with the epoch where the serial number should stand. -/
def hbFieldsLegacy (r : HbRecord) : List Byte :=
  le32 r.epoch ++ le32 r.epoch ++ le32 r.serial ++ le16 r.volt ++ [r.temp, r.mode]

/-- R189 and R190: exactly `HB_LEN` bytes. -/
def hbEncode (cfg : Config) (r : HbRecord) : List Byte :=
  match cfg.hbEncMode with
  | .symmetric => fitTo cfg.hbLen (hbFieldsSymmetric r)
  | .legacyDup => fitTo cfg.hbLen (hbFieldsLegacy r)

/-- `encodePayload(TAG)` of R160 and R164. -/
def State.encodePayload (s : State) : List Byte :=
  match s.msg.tag with
  | .sar => sarEncode s.msg.sarDoc s.msg.plen.toNat
  | .stby => stbyEncode s.msg.stby
  | .hb => hbEncode s.cfg s.msg.hb
  | .none => []

/-- A complete frame of command `c` stands in `SB`: R131's completion test holds, its header checks passed (R129), and
its payload checksum matches (R132). Inside an operation only: at the end of each operation `idx` is back at 0 (R135). -/
def State.frameReady (s : State) (c : U16) : Bool :=
  decide (12 ≤ s.parser.idx) && decide (s.parser.idx = 12 + s.parser.capLen.toNat) && decide (s.parser.capCmd = c) &&
    !lenBad s.cfg s.parser.capCmd s.parser.capLen && decide (cksum16 s.payload = s.parser.capPck)

/-- The state in which a complete frame's payload is decoded: MSG cleared (R122), the frame consumed (R135). -/
def State.takeFrame (s : State) : State :=
  s.clearMsg.setIdx 0

/-- The frame command SetSarMode (R181, R133, R134): the complete frame in `SB` is decoded and committed, or is a content
error. Where no complete frame of this command stands in `SB` there is nothing to decode (log entry 9). -/
def execSetSarMode (s : State) : Host.Outcome State Fault Refusal :=
  .next (s.unlessFaulted .refused
    (if s.frameReady cmdSar then s.takeFrame.decodeSar s.payload else s.returns .none))

/-- The frame command SetStandbyState (R185, R133). -/
def execSetStandbyState (s : State) : Host.Outcome State Fault Refusal :=
  .next (s.unlessFaulted .refused
    (if s.frameReady cmdStby then s.takeFrame.decodeStby s.payload else s.returns .none))

/-- The frame command Heartbeat (R188, R133). -/
def execHeartbeat (s : State) : Host.Outcome State Fault Refusal :=
  .next (s.unlessFaulted .refused
    (if s.frameReady cmdHb then s.takeFrame.decodeHb s.payload else s.returns .none))

end Sys2Proof.Machine
end

