-- ==== Sys2Proof/Machine/Parser.lean ====
section
/-! DEFINITION. The incremental parser (41_parser.md): `PUSH_BYTE` and `FEED`. -/

namespace Sys2Proof.Machine

/-- R123: the signature scan. -/
def State.scanSignature (s : State) (b : Byte) : Except Fault State :=
  if b = sig then
    match s.storeByte b with
    | .ok t => .ok (t.finish 0x00#8)
    | .error f => .error f
  else .ok (s.resync stSig)

/-- R125 to R129: the field captured when `idx` reaches 4, 6, 8, 10 or 12. -/
def ParserRegs.capture (p : ParserRegs) : ParserRegs :=
  if p.idx = 4 then { p with capHck := p.sb.rd16 2 }
  else if p.idx = 6 then { p with capPck := p.sb.rd16 4 }
  else if p.idx = 8 then { p with capProps := p.sb.rd16 6 }
  else if p.idx = 10 then { p with capCmd := p.sb.rd16 8 }
  else if p.idx = 12 then { p with capLen := p.sb.rd16 10 }
  else p

/-- R132 to R135: a complete frame is consumed; its payload checksum is compared, then its payload is decoded by its
variant. (A complete frame with a command outside `KNOWN` is in no reachable state, R128; R78 calls it a framing
error.) -/
def State.completeFrame (s : State) : State :=
  if cksum16 s.payload ≠ s.parser.capPck then s.resync stPck
  else
    match variantOf s.parser.capCmd with
    | .sar => (s.setIdx 0).decodeSar s.payload
    | .stby => (s.setIdx 0).decodeStby s.payload
    | .hb => (s.setIdx 0).decodeHb s.payload
    | .none => s.resync stCmd

/-- The header status of the frame in progress when `idx` is 12 (R129, R130). -/
def State.headerStatus (s : State) : Byte :=
  Sys2Proof.Machine.headerStatus s.cfg s.parser.capCmd s.parser.capLen s.parser.capHck (s.parser.sb.readRange 6 6)

/-- The checks of R128 to R131, by the value `idx` has reached and after its field is captured. -/
def State.checkByte (s : State) : State :=
  if s.parser.idx = 10 ∧ known s.parser.capCmd = false then s.resync stCmd
  else if s.parser.idx = 12 ∧ s.headerStatus ≠ 0x00#8 then s.resync s.headerStatus
  else if 12 ≤ s.parser.idx ∧ s.parser.idx = 12 + s.parser.capLen.toNat then s.completeFrame
  else s.finish 0x00#8

/-- R124 to R131: a byte stored at `SB[idx]`, its capture and its checks. -/
def State.accumulate (s : State) (b : Byte) : Except Fault State :=
  match s.storeByte b with
  | .ok t => .ok (State.checkByte { t with parser := t.parser.capture })
  | .error f => .error f

/-- R120 past the refusal: MSG is cleared (R122), then the byte is scanned for the signature or accumulated. -/
def State.parseByte (s : State) (b : Byte) : Except Fault State :=
  if s.parser.idx < 2 then s.clearMsg.scanSignature b else s.clearMsg.accumulate b

/-- R120 `PUSH_BYTE`, refused while faulted (R121). -/
def execPushByte (b : Byte) (s : State) : Host.Outcome State Fault Refusal :=
  if s.fault ≠ 0x00#8 then .next (s.returns (.status stRefused)) else outcomeOf (s.parseByte b)

/-- The loop of R140: `n` bytes consumed so far, `diag` the OR of their status words. It stops on `DONE` only (R141). -/
def State.feedLoop (s : State) (n : Nat) (diag : Byte) (bs : List Byte) : Except Fault State :=
  match bs with
  | [] => .ok (s.returns (.feed false n [] diag))
  | b :: bs =>
    match s.parseByte b with
    | .error f => .error f
    | .ok t =>
      if t.lastStatus &&& stDone ≠ 0x00#8 then .ok (t.returns (.feed true (n + 1) bs (diag ||| t.lastStatus)))
      else State.feedLoop t (n + 1) (diag ||| t.lastStatus) bs

/-- R140 `FEED`. -/
def execFeed (bs : Option (List Byte)) (s : State) : Host.Outcome State Fault Refusal :=
  if s.fault ≠ 0x00#8 then .next (s.returns (.feed false 0 (bs.getD []) stRefused))
  else
    match bs with
    | none => .next (s.raiseFault faultNull)
    | some bs => outcomeOf (s.feedLoop 0 0x00#8 bs)

end Sys2Proof.Machine
end

