-- ==== Sys2Proof/Machine/Serializer.lean ====
section
/-! DEFINITION. The serializer (42_serializer.md): `SERIALIZE` and `GET_OUT`. -/

namespace Sys2Proof.Machine

/-- The header bytes [6,12) of a frame (R72): properties, command code, payload length. -/
def headerBytes (p c len : U16) : List Byte :=
  le16 p ++ le16 c ++ le16 len

/-- A frame with given header fields and payload, both checksums computed (R162 to R165). -/
def frameBytes (p c len : U16) (pay : List Byte) : List Byte :=
  [sig, sig] ++ le16 (cksum16 (headerBytes p c len)) ++ le16 (cksum16 pay) ++ headerBytes p c len ++ pay

/-- `frame(p, c, pay)` of R89. -/
def frame (p c : U16) (pay : List Byte) : List Byte :=
  frameBytes p c (BitVec.ofNat 16 pay.length) pay

/-- R161: MSG is populated. -/
def State.populated (s : State) : Bool :=
  (decide (s.msg.state = .valid) || decide (s.msg.state = .building)) && s.msg.propsW && s.msg.cmdW &&
    decide (s.msg.tag ≠ .none)

/-- The frame of MSG (R160): the encoded payload fills `o[12..12+PLEN)` of a fresh buffer of zeros. -/
def State.serialized (s : State) : List Byte :=
  frameBytes s.msg.props s.msg.cmd s.msg.plen (fitTo s.msg.plen.toNat s.encodePayload)

/-- R166: the frame replaces the output buffer and is returned. -/
def State.putOut (s : State) (o : List Byte) : State :=
  { s with out := { ob := Memory.ofBytes 0 o, outLen := o.length, outValid := true }, ret := .output o o.length }

/-- R160 `SERIALIZE`. -/
def execSerialize (s : State) : Host.Outcome State Fault Refusal :=
  if s.fault ≠ 0x00#8 then .next (s.returns .refused)
  else if s.populated = false then .next (s.raiseFault faultSerialize)
  else if s.cfg.bufCap < 12 + s.msg.plen.toNat then .fault .outputAddress
  else .next (s.putOut s.serialized)

/-- R170 `GET_OUT`. -/
def execGetOut (s : State) : Host.Outcome State Fault Refusal :=
  .next (s.access s.out.outValid (.output (s.out.ob.readRange 0 s.out.outLen) s.out.outLen))

end Sys2Proof.Machine
end

