-- ==== Sys2Proof/Machine/System.lean ====
section
/-! DEFINITION. `GET_STATUS` (R218), `RESET` (R260), and an operation code the block does not have (R87, R234). -/

namespace Sys2Proof.Machine

/-- R218 `GET_STATUS`: never refused, never faults. -/
def execGetStatus (s : State) : Host.Outcome State Fault Refusal :=
  .next (s.returns (.blockStatus s.lastStatus s.msg.state s.fault))

/-- R260 `RESET`: never refused. -/
def execReset (s : State) : Host.Outcome State Fault Refusal :=
  .next s.resetBlock

/-- An operation code outside R85's table (R234, R236): refused while faulted, else `ILLEGAL_OP`. -/
def State.illegalOp (s : State) : State :=
  s.unlessFaulted .refused (s.raiseFault faultIllegalOp)

end Sys2Proof.Machine
end

