-- ==== Sys2Proof/Machine/Dispatch.lean ====
section
/-! DEFINITION. One arm per instruction. -/

namespace Sys2Proof.Machine

def exec (i : Instr) (s : State) : Host.Outcome State Fault Refusal :=
  match i with
  | .pushByte b => Sys2Proof.Machine.execPushByte b s
  | .feed bs => Sys2Proof.Machine.execFeed bs s
  | .setProps v => Sys2Proof.Machine.execSetProps v s
  | .setCmd c => Sys2Proof.Machine.execSetCmd c s
  | .setSar d => Sys2Proof.Machine.execSetSar d s
  | .setStandby f => Sys2Proof.Machine.execSetStandby f s
  | .setHeartbeat e n v t m => Sys2Proof.Machine.execSetHeartbeat e n v t m s
  | .serialize => Sys2Proof.Machine.execSerialize s
  | .getOut => Sys2Proof.Machine.execGetOut s
  | .getProps => Sys2Proof.Machine.execGetProps s
  | .getPriority => Sys2Proof.Machine.execGetPriority s
  | .getAck => Sys2Proof.Machine.execGetAck s
  | .getVersion => Sys2Proof.Machine.execGetVersion s
  | .getReserved => Sys2Proof.Machine.execGetReserved s
  | .getCmd => Sys2Proof.Machine.execGetCmd s
  | .getLen => Sys2Proof.Machine.execGetLen s
  | .getSar => Sys2Proof.Machine.execGetSar s
  | .getSarText => Sys2Proof.Machine.execGetSarText s
  | .getStandby => Sys2Proof.Machine.execGetStandby s
  | .getHeartbeat => Sys2Proof.Machine.execGetHeartbeat s
  | .getStatus => Sys2Proof.Machine.execGetStatus s
  | .reset => Sys2Proof.Machine.execReset s
  | .setSarMode => Sys2Proof.Machine.execSetSarMode s
  | .setStandbyState => Sys2Proof.Machine.execSetStandbyState s
  | .heartbeat => Sys2Proof.Machine.execHeartbeat s

end Sys2Proof.Machine
end

