-- ==== Sys2Proof/WellFormed.lean ====
section
/-! DEFINITION. Which instructions have an encoding on the host port. -/

namespace Sys2Proof

/-- R86: the `FEED` length is a u16 and 0xFFFF means that the operand is absent, "So a present `FEED` operand carries
at most 65534 bytes". Every other operand is bounded by its type. -/
def Instr.wf : Instr → Bool
  | .feed (some bs) => decide (bs.length ≤ 65534)
  | .feed none => true
  | .pushByte _ | .setProps _ | .setCmd _ | .setSar _ | .setStandby _ | .setHeartbeat _ _ _ _ _ => true
  | .serialize | .getOut | .getProps | .getPriority | .getAck | .getVersion | .getReserved | .getCmd | .getLen => true
  | .getSar | .getSarText | .getStandby | .getHeartbeat | .getStatus | .reset => true
  | .setSarMode | .setStandbyState | .heartbeat => true

/-- The two encoding spaces of 30_encoding.md: `true` for the 22 host operations of R85, `false` for the frame
commands of R77. -/
def Instr.isHostOp : Instr → Bool
  | .setSarMode | .setStandbyState | .heartbeat => false
  | .pushByte _ | .feed _ | .setProps _ | .setCmd _ | .setSar _ | .setStandby _ | .setHeartbeat _ _ _ _ _ => true
  | .serialize | .getOut | .getProps | .getPriority | .getAck | .getVersion | .getReserved | .getCmd | .getLen => true
  | .getSar | .getSarText | .getStandby | .getHeartbeat | .getStatus | .reset => true

end Sys2Proof
end

