-- ==== Sys2Proof/Decode.lean ====
section
/-! DEFINITION. Decoding the host port (R85 to R87) and the frame command code (R77, R78), total on any bytes, and the
encoder for both encoding spaces. -/

namespace Sys2Proof

open Sys2Proof.Machine (le16 le32 byteAt rd16 rd32 cmdSar cmdStby cmdHb)

/-- What the host port's bytes hold. -/
inductive Decoded where
  /-- A whole host operation, then the bytes and the handed-over documents that are left. -/
  | op (i : Instr) (rest : List Byte) (docs : List JsonDoc)
  /-- No operation stands on the port in full yet. -/
  | incomplete
  /-- An operation code outside R85's table (R87). Its operands are not read. -/
  | illegal (code : Byte) (rest : List Byte)
deriving DecidableEq, Repr

/-- The presence byte of `SET_SAR` (R85): 0x00 absent, 0x01 present. Any other byte is not stated and is the free value
of log entry 8. -/
def sarPresent (p : Byte) : Bool :=
  if p = 0x00#8 then false else if p = 0x01#8 then true else Config.sarPresence p

/-- The operand of `PUSH_BYTE`: one u8. -/
def decodePushByte (rest : List Byte) (docs : List JsonDoc) : Decoded :=
  if rest.length < 1 then .incomplete else .op (.pushByte (byteAt rest 0)) (rest.drop 1) docs

/-- The operand of `FEED` (R86): an LE16 length and that many bytes; the length 0xFFFF is the absent operand. -/
def decodeFeed (rest : List Byte) (docs : List JsonDoc) : Decoded :=
  if rest.length < 2 then .incomplete
  else if rd16 rest 0 = 0xFFFF#16 then .op (.feed none) (rest.drop 2) docs
  else if (rest.drop 2).length < (rd16 rest 0).toNat then .incomplete
  else .op (.feed (some ((rest.drop 2).take (rd16 rest 0).toNat))) ((rest.drop 2).drop (rd16 rest 0).toNat) docs

/-- A single LE16 operand: `SET_PROPS` and `SET_CMD`. -/
def decodeWord (mk : U16 → Instr) (rest : List Byte) (docs : List JsonDoc) : Decoded :=
  if rest.length < 2 then .incomplete else .op (mk (rd16 rest 0)) (rest.drop 2) docs

/-- The operand of `SET_SAR`: the presence byte, and, when present, the document handed over outside the port. -/
def decodeSetSar (rest : List Byte) (docs : List JsonDoc) : Decoded :=
  if rest.length < 1 then .incomplete
  else if sarPresent (byteAt rest 0) then
    match docs with
    | [] => .incomplete
    | d :: ds => .op (.setSar (some d)) (rest.drop 1) ds
  else .op (.setSar none) (rest.drop 1) docs

/-- The operand of `SET_STANDBY` (R86): a byte other than 0x00 reads as true. -/
def decodeSetStandby (rest : List Byte) (docs : List JsonDoc) : Decoded :=
  if rest.length < 1 then .incomplete else .op (.setStandby (byteAt rest 0 != 0x00#8)) (rest.drop 1) docs

/-- The operands of `SET_HEARTBEAT` (R204): `LE32(e) LE32(s) LE16(bits16(v)) bits8(t) m`. -/
def decodeSetHeartbeat (rest : List Byte) (docs : List JsonDoc) : Decoded :=
  if rest.length < 12 then .incomplete
  else .op (.setHeartbeat (rd32 rest 0) (rd32 rest 4) (rd16 rest 8) (byteAt rest 10) (byteAt rest 11))
    (rest.drop 12) docs

/-- R85's table by operation code. -/
def decodeCode (code : Byte) (rest : List Byte) (docs : List JsonDoc) : Decoded :=
  if code = 0x01#8 then decodePushByte rest docs
  else if code = 0x02#8 then decodeFeed rest docs
  else if code = 0x10#8 then decodeWord .setProps rest docs
  else if code = 0x11#8 then decodeWord .setCmd rest docs
  else if code = 0x12#8 then decodeSetSar rest docs
  else if code = 0x13#8 then decodeSetStandby rest docs
  else if code = 0x14#8 then decodeSetHeartbeat rest docs
  else if code = 0x20#8 then .op .serialize rest docs
  else if code = 0x21#8 then .op .getOut rest docs
  else if code = 0x30#8 then .op .getProps rest docs
  else if code = 0x31#8 then .op .getPriority rest docs
  else if code = 0x32#8 then .op .getAck rest docs
  else if code = 0x33#8 then .op .getVersion rest docs
  else if code = 0x34#8 then .op .getReserved rest docs
  else if code = 0x35#8 then .op .getCmd rest docs
  else if code = 0x36#8 then .op .getLen rest docs
  else if code = 0x37#8 then .op .getSar rest docs
  else if code = 0x38#8 then .op .getSarText rest docs
  else if code = 0x39#8 then .op .getStandby rest docs
  else if code = 0x3A#8 then .op .getHeartbeat rest docs
  else if code = 0x3B#8 then .op .getStatus rest docs
  else if code = 0xFF#8 then .op .reset rest docs
  else .illegal code rest

/-- The next host operation on the port: an 8-bit operation code followed by its operands (R85). -/
def decodeHostOp (port : List Byte) (docs : List JsonDoc) : Decoded :=
  match port with
  | [] => .incomplete
  | code :: rest => decodeCode code rest docs

/-- The frame command of a command code; every code outside `KNOWN` is illegal (R77, R78). -/
def decodeCommand (c : U16) : Option Instr :=
  if c = cmdSar then some .setSarMode
  else if c = cmdStby then some .setStandbyState
  else if c = cmdHb then some .heartbeat
  else none

/-- The bytes of an instruction: the host-port bytes of R85, or the two command-code bytes a frame carries at offsets 8
and 9 (R77). -/
def encode : Instr → List Byte
  | .pushByte b => [0x01#8, b]
  | .feed none => [0x02#8, 0xFF#8, 0xFF#8]
  | .feed (some bs) => 0x02#8 :: (le16 (BitVec.ofNat 16 bs.length) ++ bs)
  | .setProps v => 0x10#8 :: le16 v
  | .setCmd c => 0x11#8 :: le16 c
  | .setSar none => [0x12#8, 0x00#8]
  | .setSar (some _) => [0x12#8, 0x01#8]
  | .setStandby f => [0x13#8, if f then 0x01#8 else 0x00#8]
  | .setHeartbeat e s v t m => 0x14#8 :: (le32 e ++ le32 s ++ le16 v ++ [t, m])
  | .serialize => [0x20#8]
  | .getOut => [0x21#8]
  | .getProps => [0x30#8]
  | .getPriority => [0x31#8]
  | .getAck => [0x32#8]
  | .getVersion => [0x33#8]
  | .getReserved => [0x34#8]
  | .getCmd => [0x35#8]
  | .getLen => [0x36#8]
  | .getSar => [0x37#8]
  | .getSarText => [0x38#8]
  | .getStandby => [0x39#8]
  | .getHeartbeat => [0x3A#8]
  | .getStatus => [0x3B#8]
  | .reset => [0xFF#8]
  | .setSarMode => le16 cmdSar
  | .setStandbyState => le16 cmdStby
  | .heartbeat => le16 cmdHb

/-- The documents an instruction hands over outside the port (R85): that of a present `SET_SAR`. -/
def handedOver : Instr → List JsonDoc
  | .setSar (some d) => [d]
  | _ => []

/-- The bytes of an opcode-table word: bit 0 is the least significant bit of the first byte. -/
def tableBytes (nbits w : Nat) : List Byte :=
  (List.range (nbits / 8)).map fun k => BitVec.ofNat 8 (w >>> (8 * k))

/-- An opcode-table word as the host port holds it: its bytes, then zeros up to the longest instruction that can begin
with them. -/
def tablePort (nbits w : Nat) : List Byte :=
  let bs := tableBytes nbits w
  bs ++ List.replicate (if byteAt bs 0 = 0x02#8 then (rd16 bs 1).toNat + 2 else 12) 0#8

/-- The host operation at the head of the port, if one stands there in full. -/
def Decoded.instr? : Decoded → Option Instr
  | .op i _ _ => some i
  | .incomplete => none
  | .illegal _ _ => none

/-- The instruction the decoders read from an opcode-table word. A 16-bit word that is a known command code is a frame
command; any other word is the head of a host operation, all further bits 0. (No command code's low byte is an operation
code of R85.) -/
def decodeTableWord (nbits w : Nat) : Option Instr :=
  match (if nbits = 16 then decodeCommand (rd16 (tableBytes 16 w) 0) else none) with
  | some i => some i
  | none => (decodeHostOp (tablePort nbits w) []).instr?

end Sys2Proof
end

