-- ==== Sys2Proof/Machine/Fetch.lean ====
section
/-! DEFINITION. Where the next instruction comes from: the host port, or the scratch buffer when a complete frame stands
in it. -/

namespace Sys2Proof.Machine

/-- What a step finds to do. -/
inductive Fetched where
  /-- An instruction, and the state with its bytes taken. -/
  | run (i : Instr) (s : State)
  /-- An operation code outside R85's table, and the state with it taken. -/
  | illegal (s : State)
  /-- Nothing the host has issued in full. -/
  | wait
deriving DecidableEq, Repr

/-- The frame command of a complete frame in `SB` (log entry 9): its code is the one captured from `SB[8..10)`. -/
def State.pendingCommand (s : State) : Option Instr :=
  if s.frameReady s.parser.capCmd then decodeCommand s.parser.capCmd else none

/-- The next instruction: the command of a complete frame, else the operation at the head of the host port (R59: in the
order the host issues them). -/
def State.fetch (s : State) : Fetched :=
  match s.pendingCommand with
  | some i => .run i s
  | none =>
    match decodeHostOp s.port s.docs with
    | .op i rest docs => .run i { s with port := rest, docs := docs }
    | .illegal _ rest => .illegal { s with port := rest }
    | .incomplete => .wait

/-- The payload length of zeros that a frame of command `c` has when nothing follows its command code. -/
def zeroPayloadLength (cfg : Config) (c : U16) : Nat :=
  match variantOf c with
  | .sar => 0
  | .stby => 1
  | .hb => cfg.hbLen
  | .none => 0

/-- The parser registers when a whole frame of command `c`, every other field zero, has arrived and its command is the
next thing to run. -/
def ParserRegs.withFrame (cfg : Config) (c : U16) : ParserRegs :=
  let pay := List.replicate (zeroPayloadLength cfg c) 0#8
  let f := frame 0#16 c pay
  { idx := 12 + pay.length, sb := Memory.ofBytes 0 f, capHck := rd16 f 2, capPck := rd16 f 4, capProps := rd16 f 6
    capCmd := rd16 f 8, capLen := rd16 f 10 }

/-- The bytes of the operation at the head of `bs`, without the zeros behind it. -/
def headOperation (bs : List Byte) (docs : List JsonDoc) : List Byte :=
  match decodeHostOp bs docs with
  | .op _ rest _ => bs.take (bs.length - rest.length)
  | .illegal _ rest => bs.take (bs.length - rest.length)
  | .incomplete => bs

/-- The state in which the table word `w` is what the next step fetches: a command code as a complete frame in `SB`,
any other word at the head of the host port. -/
def State.placeWord (s : State) (nbits w : Nat) : State :=
  let c := rd16 (tableBytes 16 w) 0
  if nbits = 16 ∧ decodeCommand c ≠ none then { s with parser := ParserRegs.withFrame s.cfg c }
  else
    { s with
      port := headOperation (tablePort nbits w) s.docs ++ s.port
      parser := if s.pendingCommand = none then s.parser else { s.parser with idx := 0 } }

end Sys2Proof.Machine
end

