-- ==== Sys2Proof/Machine/Step.lean ====
section
/-! DEFINITION. One step: one host operation is one atomic transition (R6, R55). -/

namespace Sys2Proof.Machine

/-- Takes the next instruction and runs it. A configuration that breaks R8 is refused. An operation code outside R85's
table takes `ILLEGAL_OP`. With nothing issued in full the state stays as it is (R37; log entry 5). -/
def step (s : State) : Host.Outcome State Fault Refusal :=
  if s.cfg.wf then
    match s.fetch with
    | .run i t => exec i t
    | .illegal t => .next t.illegalOp
    | .wait => .next s
  else .refused .badConfiguration

/-- The state whose next step fetches and runs the table word `w` (log entry 10). -/
def State.withFetchWord (s : State) (nbits w : Nat) : State :=
  s.placeWord nbits w

end Sys2Proof.Machine
end

