-- ==== Sys2Proof/Safety.lean ====
section
/-! DEFINITION. The terms statements use: the invariants the spec derives (R22 to R24, R30, R31, R137, R146), the runs of
a host, agreement of two states on everything that can be observed, and pushing a byte string byte by byte. -/

namespace Sys2Proof.Machine

/-- The instruction ends in the next state `t`. -/
abbrev Goes (o : Host.Outcome State Fault Refusal) (t : State) : Prop :=
  o = .next t

/-- R22 to R24 and R146: `idx` lies below the end of the frame in progress, `SB` lies in its address space, and what the
parser has accepted so far is what its captured fields say. -/
structure ParserInv (cfg : Config) (p : ParserRegs) : Prop where
  sbWf : p.sb.wf = true
  sbBound : ∀ c ∈ p.sb, c.1 < cfg.bufCap
  idxBelowEnd : p.idx < 12 ∨ p.idx < 12 + p.capLen.toNat
  sigFirst : 1 ≤ p.idx → p.sb.read 0 = sig
  sigSecond : 2 ≤ p.idx → p.sb.read 1 = sig
  hckCaptured : 4 ≤ p.idx → p.capHck = p.sb.rd16 2
  pckCaptured : 6 ≤ p.idx → p.capPck = p.sb.rd16 4
  propsCaptured : 8 ≤ p.idx → p.capProps = p.sb.rd16 6
  cmdCaptured : 10 ≤ p.idx → p.capCmd = p.sb.rd16 8
  cmdKnown : 10 ≤ p.idx → known p.capCmd = true
  lenCaptured : 12 ≤ p.idx → p.capLen = p.sb.rd16 10
  lenGood : 12 ≤ p.idx → lenBad cfg p.capCmd p.capLen = false
  headerChecked : 12 ≤ p.idx → cksum16 (p.sb.readRange 6 6) = p.capHck

/-- The seven invariants of R30, in its order. -/
structure MsgInv (cfg : Config) (m : MsgRegs) : Prop where
  emptyUnset : m.state = .empty ∨ m.state = .contentInvalid → m.propsW = false ∧ m.cmdW = false ∧ m.tag = .none
  cmdKnown : m.cmdW = true → known m.cmd = true
  tagOfCmd : m.tag ≠ .none → m.cmdW = true ∧ variantOf m.cmd = m.tag
  stbyLen : m.tag = .stby → m.plen.toNat = 1
  hbLen : m.tag = .hb → m.plen.toNat = cfg.hbLen
  sarLen : m.tag = .sar → m.plen.toNat ≤ max cfg.sarMaxLen cfg.sarParseLimit
  validSet : m.state = .valid → m.propsW = true ∧ m.cmdW = true ∧ m.tag ≠ .none

/-- R31: `OB` lies in its address space, `OUT_LEN` in `0..BUF_CAP`, and nothing is held before a serialization. -/
structure OutInv (cfg : Config) (o : OutRegs) : Prop where
  obWf : o.ob.wf = true
  obBound : ∀ c ∈ o.ob, c.1 < o.outLen
  lenBound : o.outLen ≤ cfg.bufCap
  unsetEmpty : o.outValid = false → o.ob = [] ∧ o.outLen = 0

/-- The status words of R137 that `LAST_STATUS` can hold (a refused `PUSH_BYTE` does not write it, R32). -/
def latchedStatuses : List Byte :=
  [0x00#8, 0x01#8, 0x02#8, 0x04#8, 0x08#8, 0x10#8, 0x18#8, 0x20#8, 0x40#8]

/-- The values of `FAULT` (R234). -/
def faultCodes : List Byte :=
  [0#8, 1#8, 2#8, 3#8, 4#8, 5#8, 6#8]

/-- The invariant of every state the block reaches. -/
structure BlockInv (s : State) : Prop where
  cfgWf : s.cfg.wf = true
  cfgFits : s.cfg.fits = true
  parser : ParserInv s.cfg s.parser
  msg : MsgInv s.cfg s.msg
  out : OutInv s.cfg s.out
  status : s.lastStatus ∈ latchedStatuses
  fault : s.fault ∈ faultCodes

/-- The states a host can bring the block to from reset: under any configuration that satisfies R8 (and log entry 3),
issuing any bytes and handing over any documents, and letting the block step. -/
inductive Reached : State → Prop where
  | reset (cfg : Config) (hw : cfg.wf = true) (hf : cfg.fits = true) : Reached { State.reset with cfg := cfg }
  | issue (s : State) (port : List Byte) (docs : List JsonDoc) (h : Reached s) :
      Reached { s with port := s.port ++ port, docs := s.docs ++ docs }
  | step (s t : State) (h : Reached s) (hs : step s = .next t) : Reached t

/-- `PUSH_BYTE` once for each byte of a string, in order. -/
def pushAll (bs : List Byte) (s : State) : Host.Outcome State Fault Refusal :=
  match bs with
  | [] => .next s
  | b :: bs =>
    match exec (.pushByte b) s with
    | .next t => pushAll bs t
    | .fault f => .fault f
    | .refused r => .refused r

/-- The OR of the status words that `PUSH_BYTE` returns for the bytes of a string, in order (R140). -/
def pushDiag (bs : List Byte) (s : State) : Byte :=
  match bs with
  | [] => 0x00#8
  | b :: bs =>
    match exec (.pushByte b) s with
    | .next t => t.lastStatus ||| pushDiag bs t
    | .fault _ => 0x00#8
    | .refused _ => 0x00#8

/-- The two states differ in their last result at most. -/
def SameBlock (s t : State) : Prop :=
  { s with ret := .none } = { t with ret := .none }

/-- The parser registers agree on all that a rule may read (R23, R24): `SB` below `idx`, each captured field once its
bytes have arrived. -/
structure ParserAgree (p q : ParserRegs) : Prop where
  idx : p.idx = q.idx
  sb : ∀ a, a < p.idx → p.sb.read a = q.sb.read a
  hck : 4 ≤ p.idx → p.capHck = q.capHck
  pck : 6 ≤ p.idx → p.capPck = q.capPck
  props : 8 ≤ p.idx → p.capProps = q.capProps
  cmd : 10 ≤ p.idx → p.capCmd = q.capCmd
  len : 12 ≤ p.idx → p.capLen = q.capLen

/-- The message registers agree on all that holds a value (R26, R28). -/
structure MsgAgree (m n : MsgRegs) : Prop where
  state : m.state = n.state
  propsW : m.propsW = n.propsW
  cmdW : m.cmdW = n.cmdW
  tag : m.tag = n.tag
  props : m.propsW = true → m.props = n.props
  cmd : m.cmdW = true → m.cmd = n.cmd
  plen : m.tag ≠ .none → m.plen = n.plen
  sarDoc : m.tag = .sar → m.sarDoc = n.sarDoc
  stby : m.tag = .stby → m.stby = n.stby
  hb : m.tag = .hb → m.hb = n.hb

/-- Two states that differ at most in what R35 gives "no value". -/
structure Agree (s t : State) : Prop where
  cfg : s.cfg = t.cfg
  port : s.port = t.port
  docs : s.docs = t.docs
  ret : s.ret = t.ret
  parser : ParserAgree s.parser t.parser
  msg : MsgAgree s.msg t.msg
  out : s.out = t.out
  lastStatus : s.lastStatus = t.lastStatus
  fault : s.fault = t.fault

/-- The 22 operation codes of R85. -/
def hostOpCodes : List Byte :=
  [0x01#8, 0x02#8, 0x10#8, 0x11#8, 0x12#8, 0x13#8, 0x14#8, 0x20#8, 0x21#8, 0x30#8, 0x31#8, 0x32#8, 0x33#8, 0x34#8,
    0x35#8, 0x36#8, 0x37#8, 0x38#8, 0x39#8, 0x3A#8, 0x3B#8, 0xFF#8]

/-- MSG after the clear of R122. -/
abbrev clearedMsg (s : State) : MsgRegs :=
  { s.msg with state := .empty, propsW := false, cmdW := false, tag := .none }

/-- R129's condition for `E_LEN`. -/
abbrev LengthBroken (cfg : Config) (c len : U16) : Prop :=
  c = 0xFF05#16 ∧ len.toNat ≠ 1 ∨ c = 0xFF08#16 ∧ len.toNat ≠ cfg.hbLen ∨
    c = 0xFF03#16 ∧ len.toNat > cfg.sarParseLimit

/-- The MSG registers a commit leaves (R133), but for the arm's own. -/
abbrev committedMsg (s : State) (t : Tag) : MsgRegs :=
  { s.msg with
    state := .valid, propsW := true, cmdW := true, tag := t
    props := s.parser.capProps, cmd := s.parser.capCmd, plen := s.parser.capLen }

/-- R169's conditions on the payload, by variant. -/
def RoundTrips (s : State) : Prop :=
  match s.msg.tag with
  | .none => False
  | .stby => True
  | .hb => True
  | .sar =>
    (Config.jsonRender s.msg.sarDoc).length = s.msg.plen.toNat ∧ s.msg.plen.toNat ≤ s.cfg.sarParseLimit ∧
      Config.jsonParse (Config.jsonRender s.msg.sarDoc) = some s.msg.sarDoc

/-- The two messages have the same properties, command code, payload length, variant and payload; of a Heartbeat's record
R169 says so under `SYMMETRIC` only. -/
def SameMessage (cfg : Config) (m n : MsgRegs) : Prop :=
  m.props = n.props ∧ m.cmd = n.cmd ∧ m.plen = n.plen ∧ m.tag = n.tag ∧ (m.tag = .sar → m.sarDoc = n.sarDoc) ∧
    (m.tag = .stby → m.stby = n.stby) ∧ (m.tag = .hb → cfg.hbEncMode = .symmetric → m.hb = n.hb)

end Sys2Proof.Machine
end

