-- ==== Sys2Proof/Certificates/Slice0/Obligations.lean ====
section
/-! DEFINITION. The statements. Where a next state is written out as an update of `s`, the statement says the whole frame:
every field the update does not name is unchanged. -/

open Sys2Proof Sys2Proof.Machine

/-! Encodings. -/

/-- R85 and R77: words written out from their tables decode to the instruction they stand for (V-PAR, P1, V-EX-2). -/
def Obligations.WrittenWordsDecode : Prop :=
  decodeHostOp [0x01#8, 0x54#8] [] = .op (.pushByte 0x54#8) [] [] ∧
    decodeHostOp [0x02#8, 0x01#8, 0x00#8, 0x54#8, 0x20#8] [] = .op (.feed (some [0x54#8])) [0x20#8] [] ∧
    decodeHostOp [0x10#8, 0x34#8, 0x12#8] [] = .op (.setProps 0x1234#16) [] [] ∧
    decodeHostOp [0x11#8, 0x05#8, 0xFF#8] [] = .op (.setCmd 0xFF05#16) [] [] ∧
    decodeHostOp [0x3A#8] [] = .op .getHeartbeat [] [] ∧
    decodeCommand (rd16 [0x08#8, 0xFF#8] 0) = some .heartbeat

/-- Decoding an encoded well-formed host operation gives it back, with every operand, and leaves the rest of the port and
of the handed-over documents (R85, R86). -/
def Obligations.DecodeEncodeHostOperation : Prop :=
  ∀ (i : Instr) (rest : List Byte) (docs : List JsonDoc), i.wf = true → i.isHostOp = true →
    decodeHostOp (encode i ++ rest) (handedOver i ++ docs) = .op i rest docs

/-- A frame command is its two command-code bytes (R77), and no other code decodes to it (R78). -/
def Obligations.DecodeEncodeFrameCommand : Prop :=
  ∀ (i : Instr) (c : U16), i.isHostOp = false → (decodeCommand c = some i ↔ encode i = le16 c)

/-- What decodes stands on the port byte for byte: the decoder reads the operation's own bytes, no more and no fewer. The
only second spellings are the operand bytes of `SET_STANDBY` (R86) and of `SET_SAR` (log entry 8). -/
def Obligations.DecodedOperationStandsOnPort : Prop :=
  ∀ (port rest : List Byte) (docs ds : List JsonDoc) (i : Instr), decodeHostOp port docs = .op i rest ds →
    i.wf = true ∧ i.isHostOp = true ∧ docs = handedOver i ++ ds ∧
      ∃ used, port = used ++ rest ∧ used.length = (encode i).length ∧ used.head? = (encode i).head? ∧
        (∀ f, i = .setStandby f → ∃ b, used = [0x13#8, b] ∧ (f = true ↔ b ≠ 0x00#8)) ∧
        ((∀ f, i ≠ .setStandby f) → (∀ d, i ≠ .setSar d) → used = encode i)

/-- R87: exactly the codes outside R85's table are illegal. -/
def Obligations.UnlistedCodeIsIllegal : Prop :=
  ∀ (code : Byte) (rest : List Byte) (docs : List JsonDoc),
    decodeHostOp (code :: rest) docs = .illegal code rest ↔ code ∉ hostOpCodes

/-! One step. -/

/-- A step runs the operation at the head of the host port, its bytes and its document taken. -/
def Obligations.StepRunsIssuedOperation : Prop :=
  ∀ (s : State) (i : Instr) (rest : List Byte) (ds : List JsonDoc), s.cfg.wf = true → s.pendingCommand = none →
    decodeHostOp s.port s.docs = .op i rest ds → step s = exec i { s with port := rest, docs := ds }

/-- A step runs the command of a complete frame that stands in `SB` (log entry 9). -/
def Obligations.StepRunsCommandOfCompleteFrame : Prop :=
  ∀ (s : State) (c : U16) (i : Instr), s.cfg.wf = true → s.frameReady c = true → decodeCommand c = some i →
    step s = exec i s

/-- R87, R234, R236: an unlisted operation code faults with `ILLEGAL_OP`; while faulted it is refused and the first code
is kept. That its one byte leaves the port and nothing else does is the model's choice (log entry 5), and so is that the
code is acted on at once, whatever stands behind it (log entry 11). -/
def Obligations.UnlistedCodeTakesIllegalOp : Prop :=
  ∀ (s : State) (code : Byte) (rest : List Byte), s.cfg.wf = true → s.pendingCommand = none → s.port = code :: rest →
    code ∉ hostOpCodes →
      step s = .next
        (if s.fault = 0x00#8 then { s with port := rest, fault := 1#8, ret := .faulted }
        else { s with port := rest, ret := .refused })

/-- R8: a configuration that breaks a constraint is refused, and nothing else ever is. -/
def Obligations.OnlyBadConfigurationRefused : Prop :=
  ∀ s : State,
    (12 ≤ s.cfg.hbLen ∧ s.cfg.hbLen ≤ s.cfg.bufCap - 12 ∧ s.cfg.sarParseLimit ≤ s.cfg.bufCap - 12 ∧
        1 ≤ s.cfg.bufCap - 12 → ∀ r, step s ≠ .refused r) ∧
      (¬(12 ≤ s.cfg.hbLen ∧ s.cfg.hbLen ≤ s.cfg.bufCap - 12 ∧ s.cfg.sarParseLimit ≤ s.cfg.bufCap - 12 ∧
        1 ≤ s.cfg.bufCap - 12) → step s = .refused .badConfiguration)

/-- With nothing issued in full a step changes nothing (the model's choice, log entry 5). -/
def Obligations.NothingIssuedWaits : Prop :=
  ∀ s : State, s.cfg.wf = true → s.pendingCommand = none → decodeHostOp s.port s.docs = .incomplete → step s = .next s

/-- R7: no instruction writes the configuration (a field of State by log entry 2). That none writes what the host has
issued and the block has not yet taken, the port and the documents, is the model's choice (log entry 5). -/
def Obligations.NoInstructionWritesConfigurationOrPort : Prop :=
  ∀ (i : Instr) (s t : State), exec i s = .next t → t.cfg = s.cfg ∧ t.port = s.port ∧ t.docs = s.docs

/-! Reset and status. -/

/-- R35: every element to which R35 gives a reset value holds it. -/
def Obligations.ResetStateHoldsResetValues : Prop :=
  State.reset.parser.idx = 0 ∧ State.reset.msg.state = .empty ∧ State.reset.msg.state.code = 0#2 ∧
    State.reset.msg.propsW = false ∧ State.reset.msg.cmdW = false ∧ State.reset.msg.tag = .none ∧
    State.reset.msg.tag.code = 0#2 ∧ State.reset.out.ob = [] ∧ State.reset.out.outLen = 0 ∧
    State.reset.out.outValid = false ∧ State.reset.lastStatus = 0x00#8 ∧ State.reset.fault = 0x00#8

/-- R260, R237: `RESET` runs in every state, faulted or not, and every element to which R35 gives a value has it. The
rest is the model's choice: an element R35 gives "no value" holds the value log entries 1 and 7 name, and what the host
has issued stays on the port (log entry 5). -/
def Obligations.ResetRestoresResetValues : Prop :=
  encode .reset = [0xFF#8] ∧
    ∀ s : State, ∃ t, exec .reset s = .next t ∧
      t = { State.reset with cfg := s.cfg, port := s.port, docs := s.docs } ∧
      t.parser.idx = 0 ∧ t.msg.state = .empty ∧ t.msg.propsW = false ∧ t.msg.cmdW = false ∧ t.msg.tag = .none ∧
      t.out.ob = [] ∧ t.out.outLen = 0 ∧ t.out.outValid = false ∧ t.lastStatus = 0x00#8 ∧ t.fault = 0x00#8 ∧
      t.ret = .none

/-- R218: `GET_STATUS` is never refused, never faults and writes no state. -/
def Obligations.StatusAlwaysReadable : Prop :=
  encode .getStatus = [0x3B#8] ∧
    ∀ s : State, exec .getStatus s = .next { s with ret := .blockStatus s.lastStatus s.msg.state s.fault }

/-! Faults. -/

/-- R236: while `FAULT != 0` every host operation but `GET_STATUS` and `RESET` is refused, changes no state and returns
what R236's table says; an illegal operation code too. -/
def Obligations.FaultedBlockRefuses : Prop :=
  ∀ s : State, s.fault ≠ 0x00#8 →
    (∀ b, exec (.pushByte b) s = .next { s with ret := .status 0x80#8 }) ∧
      (∀ bs, exec (.feed (some bs)) s = .next { s with ret := .feed false 0 bs 0x80#8 }) ∧
      exec (.feed none) s = .next { s with ret := .feed false 0 [] 0x80#8 } ∧
      (∀ i, i.isHostOp = true → (∀ b, i ≠ .pushByte b) → (∀ bs, i ≠ .feed bs) → i ≠ .getStatus → i ≠ .reset →
        exec i s = .next { s with ret := .refused }) ∧
      s.illegalOp = { s with ret := .refused }

/-- R235: a faulting operation changes `FAULT` and nothing else, and returns no value; `PUSH_BYTE` never faults. -/
def Obligations.FaultingOperationWritesOnlyFault : Prop :=
  ∀ (i : Instr) (s t : State), exec i s = .next t → t.ret = .faulted →
    s.fault = 0x00#8 ∧ (∀ b, i ≠ .pushByte b) ∧
      ∃ code, code ∈ [2#8, 3#8, 4#8, 5#8, 6#8] ∧ t = { s with fault := code, ret := .faulted }

/-- R237: no instruction but `RESET` leaves the fault state or changes its code. -/
def Obligations.OnlyResetLeavesFaultState : Prop :=
  ∀ (i : Instr) (s t : State), s.fault ≠ 0x00#8 → exec i s = .next t → i ≠ .reset → t.fault = s.fault

/-! Setters. -/

/-- R200: the whole raw value is stored, reserved bits included; refused while faulted. -/
def Obligations.SetPropsStoresRawValue : Prop :=
  ∀ (s : State) (v : U16), encode (.setProps v) = 0x10#8 :: le16 v ∧
    (s.fault = 0x00#8 → exec (.setProps v) s =
      .next { s with msg := { s.msg with props := v, propsW := true, state := .building }, ret := .none }) ∧
    (s.fault ≠ 0x00#8 → exec (.setProps v) s = .next { s with ret := .refused })

/-- R201: a known code is stored, and the payload is kept exactly when the code is of the active variant; an unknown code
faults with `UNKNOWN_CMD_SET`; refused while faulted. -/
def Obligations.SetCmdStoresKnownCode : Prop :=
  ∀ (s : State) (c : U16), encode (.setCmd c) = 0x11#8 :: le16 c ∧
    (s.fault = 0x00#8 → c ∈ [0xFF03#16, 0xFF05#16, 0xFF08#16] →
      exec (.setCmd c) s =
        .next
          { s with
            msg :=
              { s.msg with
                cmd := c, cmdW := true, state := .building
                tag := if s.msg.tag = variantOf c then s.msg.tag else .none }
            ret := .none }) ∧
    (s.fault = 0x00#8 → c ∉ [0xFF03#16, 0xFF05#16, 0xFF08#16] →
      exec (.setCmd c) s = .next { s with fault := 2#8, ret := .faulted }) ∧
    (s.fault ≠ 0x00#8 → exec (.setCmd c) s = .next { s with ret := .refused })

/-- R202: the document is kept whole and `PLEN` is its text's length capped at `SAR_MAX_LEN`; an absent document faults
with `NULL_OPERAND` before the command is looked at, a command of another variant with `VARIANT_MISMATCH`; refused while
faulted. -/
def Obligations.SetSarStoresDocument : Prop :=
  ∀ (s : State) (d : JsonDoc) (len : U16), len.toNat = min (Config.jsonRender d).length s.cfg.sarMaxLen →
    encode (.setSar (some d)) = [0x12#8, 0x01#8] ∧ encode (.setSar none) = [0x12#8, 0x00#8] ∧
    (s.fault = 0x00#8 → s.msg.cmdW = true → s.msg.cmd = 0xFF03#16 →
      exec (.setSar (some d)) s =
        .next
          { s with msg := { s.msg with sarDoc := d, plen := len, tag := .sar, state := .building }, ret := .none }) ∧
    (s.fault = 0x00#8 → ¬(s.msg.cmdW = true ∧ s.msg.cmd = 0xFF03#16) →
      exec (.setSar (some d)) s = .next { s with fault := 3#8, ret := .faulted }) ∧
    (s.fault = 0x00#8 → exec (.setSar none) s = .next { s with fault := 6#8, ret := .faulted }) ∧
    (s.fault ≠ 0x00#8 → ∀ o, exec (.setSar o) s = .next { s with ret := .refused })

/-- R203: the flag is stored and `PLEN` is 1; a command of another variant faults with `VARIANT_MISMATCH`; refused while
faulted. -/
def Obligations.SetStandbyStoresFlag : Prop :=
  ∀ (s : State) (f : Bool), encode (.setStandby f) = [0x13#8, if f then 0x01#8 else 0x00#8] ∧
    (s.fault = 0x00#8 → s.msg.cmdW = true → s.msg.cmd = 0xFF05#16 →
      exec (.setStandby f) s =
        .next { s with msg := { s.msg with stby := f, plen := 1#16, tag := .stby, state := .building }, ret := .none }) ∧
    (s.fault = 0x00#8 → ¬(s.msg.cmdW = true ∧ s.msg.cmd = 0xFF05#16) →
      exec (.setStandby f) s = .next { s with fault := 3#8, ret := .faulted }) ∧
    (s.fault ≠ 0x00#8 → exec (.setStandby f) s = .next { s with ret := .refused })

/-- R204: every operand value is stored as given and `PLEN` is `HB_LEN`; a command of another variant faults with
`VARIANT_MISMATCH`; refused while faulted. -/
def Obligations.SetHeartbeatStoresRecord : Prop :=
  ∀ (s : State) (e n : U32) (v : U16) (t m : Byte) (len : U16), len.toNat = s.cfg.hbLen →
    encode (.setHeartbeat e n v t m) = 0x14#8 :: (le32 e ++ le32 n ++ le16 v ++ [t, m]) ∧
    (s.fault = 0x00#8 → s.msg.cmdW = true → s.msg.cmd = 0xFF08#16 →
      exec (.setHeartbeat e n v t m) s =
        .next
          { s with
            msg :=
              { s.msg with
                hb := { epoch := e, serial := n, volt := v, temp := t, mode := m }
                plen := len, tag := .hb, state := .building }
            ret := .none }) ∧
    (s.fault = 0x00#8 → ¬(s.msg.cmdW = true ∧ s.msg.cmd = 0xFF08#16) →
      exec (.setHeartbeat e n v t m) s = .next { s with fault := 3#8, ret := .faulted }) ∧
    (s.fault ≠ 0x00#8 → exec (.setHeartbeat e n v t m) s = .next { s with ret := .refused })

/-! Accessors. -/

/-- R207 to R211 with R206: with the properties set each accessor returns its bits of them and writes nothing; without
them it faults with `READ_UNAVAILABLE`; while faulted it is refused. -/
def Obligations.PropertyAccessorsReturnTheirBits : Prop :=
  (encode .getProps = [0x30#8] ∧ encode .getPriority = [0x31#8] ∧ encode .getAck = [0x32#8] ∧
      encode .getVersion = [0x33#8] ∧ encode .getReserved = [0x34#8]) ∧
    ∀ s : State,
      (s.fault = 0x00#8 → s.msg.propsW = true →
        exec .getProps s = .next { s with ret := .word s.msg.props } ∧
          exec .getPriority s = .next { s with ret := .priority (BitVec.ofNat 4 (s.msg.props.toNat % 16)) } ∧
          exec .getAck s = .next { s with ret := .ack (BitVec.ofNat 2 (s.msg.props.toNat / 16 % 4)) } ∧
          exec .getVersion s = .next { s with ret := .version (BitVec.ofNat 8 (s.msg.props.toNat / 64 % 256)) } ∧
          exec .getReserved s = .next { s with ret := .reserved (BitVec.ofNat 2 (s.msg.props.toNat / 16384)) }) ∧
      ∀ i, i ∈ [Instr.getProps, .getPriority, .getAck, .getVersion, .getReserved] →
        (s.fault = 0x00#8 → s.msg.propsW = false → exec i s = .next { s with fault := 4#8, ret := .faulted }) ∧
          (s.fault ≠ 0x00#8 → exec i s = .next { s with ret := .refused })

/-- R212 and R213 with R206: the command code and the payload length; `GET_CMD` returns a member of `KNOWN` in every state
that meets the invariant. -/
def Obligations.CommandAndLengthAccessorsReturnThem : Prop :=
  (encode .getCmd = [0x35#8] ∧ encode .getLen = [0x36#8]) ∧
    ∀ s : State,
      (s.fault = 0x00#8 → s.msg.cmdW = true → exec .getCmd s = .next { s with ret := .word s.msg.cmd }) ∧
      (BlockInv s → s.msg.cmdW = true → s.msg.cmd ∈ [0xFF03#16, 0xFF05#16, 0xFF08#16]) ∧
      (s.fault = 0x00#8 → s.msg.cmdW = false → exec .getCmd s = .next { s with fault := 4#8, ret := .faulted }) ∧
      (s.fault = 0x00#8 → s.msg.tag ≠ .none → exec .getLen s = .next { s with ret := .word s.msg.plen }) ∧
      (s.fault = 0x00#8 → s.msg.tag = .none → exec .getLen s = .next { s with fault := 4#8, ret := .faulted }) ∧
      (s.fault ≠ 0x00#8 → exec .getCmd s = .next { s with ret := .refused } ∧
        exec .getLen s = .next { s with ret := .refused })

/-- R214 to R217 with R206: the accessors of the three arms. The voltage and the temperature of a record come back
signed; the JSON text is whole. -/
def Obligations.PayloadAccessorsReturnTheActiveArm : Prop :=
  (encode .getSar = [0x37#8] ∧ encode .getSarText = [0x38#8] ∧ encode .getStandby = [0x39#8] ∧
      encode .getHeartbeat = [0x3A#8]) ∧
    ∀ s : State, s.fault = 0x00#8 →
      (s.msg.tag = .sar → exec .getSar s = .next { s with ret := .document s.msg.sarDoc } ∧
        exec .getSarText s = .next { s with ret := .text (Config.jsonRender s.msg.sarDoc) }) ∧
      (s.msg.tag = .stby → exec .getStandby s = .next { s with ret := .flag s.msg.stby }) ∧
      (s.msg.tag = .hb → exec .getHeartbeat s =
        .next
          { s with
            ret := .heartbeat s.msg.hb.epoch s.msg.hb.serial
              (if s.msg.hb.volt.toNat < 0x8000 then (s.msg.hb.volt.toNat : Int) else s.msg.hb.volt.toNat - 0x10000)
              (if s.msg.hb.temp.toNat < 0x80 then (s.msg.hb.temp.toNat : Int) else s.msg.hb.temp.toNat - 0x100)
              s.msg.hb.mode }) ∧
      (s.msg.tag ≠ .sar → exec .getSar s = .next { s with fault := 4#8, ret := .faulted } ∧
        exec .getSarText s = .next { s with fault := 4#8, ret := .faulted }) ∧
      (s.msg.tag ≠ .stby → exec .getStandby s = .next { s with fault := 4#8, ret := .faulted }) ∧
      (s.msg.tag ≠ .hb → exec .getHeartbeat s = .next { s with fault := 4#8, ret := .faulted })

/-- R206 with R30: in `EMPTY` and `CONTENT_INVALID` every accessor but `GET_STATUS` faults with `READ_UNAVAILABLE`; in
`VALID` the accessors of the properties, the command code, the length and the active arm all answer. -/
def Obligations.ReadableFieldsFollowMessageState : Prop :=
  ∀ s : State, BlockInv s → s.fault = 0x00#8 →
    (s.msg.state = .empty ∨ s.msg.state = .contentInvalid →
      ∀ i, i ∈ [Instr.getProps, .getPriority, .getAck, .getVersion, .getReserved, .getCmd, .getLen, .getSar,
        .getSarText, .getStandby, .getHeartbeat] → exec i s = .next { s with fault := 4#8, ret := .faulted }) ∧
    (s.msg.state = .valid →
      ∀ i, i ∈ [Instr.getProps, .getPriority, .getAck, .getVersion, .getReserved, .getCmd, .getLen] ++
        (if s.msg.tag = .sar then [Instr.getSar, .getSarText]
        else if s.msg.tag = .stby then [Instr.getStandby] else [Instr.getHeartbeat]) →
        ∃ r, r ≠ .faulted ∧ r ≠ .refused ∧ exec i s = .next { s with ret := r })

/-- R219: an accessor that does not fault leaves the block as it was; only its result is new. -/
def Obligations.AccessorsHaveNoSideEffects : Prop :=
  ∀ (i : Instr) (s t : State),
    i ∈ [Instr.getProps, .getPriority, .getAck, .getVersion, .getReserved, .getCmd, .getLen, .getSar, .getSarText,
      .getStandby, .getHeartbeat, .getStatus] →
    exec i s = .next t → t.ret ≠ .faulted → SameBlock s t

/-- R74: the four fields and the packed value determine each other, at the bit positions of R74's formula. -/
def Obligations.PropertyFieldsPack : Prop :=
  (∀ v : U16, packProps (propPriority v) (propAck v) (propVersion v) (propReserved v) = v) ∧
    ∀ (p : BitVec 4) (a : BitVec 2) (n : BitVec 8) (r : BitVec 2),
      (packProps p a n r).toNat = p.toNat + a.toNat * 2 ^ 4 + n.toNat * 2 ^ 6 + r.toNat * 2 ^ 14 ∧
        propPriority (packProps p a n r) = p ∧ propAck (packProps p a n r) = a ∧
        propVersion (packProps p a n r) = n ∧ propReserved (packProps p a n r) = r

/-! Checksum. -/

/-- R110: the sum of the bytes as unsigned numbers, modulo 2^16, with R110's corner cases. -/
def Obligations.ChecksumIsWrappingByteSum : Prop :=
  (∀ bs : List Byte, (cksum16 bs).toNat = (bs.foldl (fun n b => n + b.toNat) 0) % 65536) ∧ cksum16 [] = 0x0000#16 ∧
    cksum16 (List.replicate 257 0xFF#8) = 0xFFFF#16 ∧ cksum16 (List.replicate 258 0xFF#8) = 0x00FE#16 ∧
    cksum16 (List.replicate 1012 0xFF#8) = 0xF00C#16 ∧
    cksum16 [0x34#8, 0x12#8, 0x05#8, 0xFF#8, 0x01#8, 0x00#8] = 0x014B#16

/-- R115, laws 1 to 3: order-independence, additivity, single-bit sensitivity. -/
def Obligations.ChecksumLaws : Prop :=
  (∀ s t : List Byte, s.Perm t → cksum16 s = cksum16 t) ∧
    (∀ s t : List Byte, cksum16 (s ++ t) = cksum16 s + cksum16 t) ∧
    ∀ (s t : List Byte) (b : Byte) (k : Nat), k < 8 →
      cksum16 (s ++ (b ^^^ (1#8 <<< k)) :: t) ≠ cksum16 (s ++ b :: t)

/-! `PUSH_BYTE`. -/

/-- R123: the signature scan. -/
def Obligations.PushByteScansSignature : Prop :=
  ∀ (s : State) (b : Byte), s.fault = 0x00#8 → s.parser.idx < 2 → s.parser.idx < s.cfg.bufCap →
    exec (.pushByte b) s =
      .next
        (if b = 0x54#8 then
          { s with
            msg := clearedMsg s
            parser := { s.parser with sb := s.parser.sb.write s.parser.idx b, idx := s.parser.idx + 1 }
            lastStatus := 0x00#8, ret := .status 0x00#8 }
        else
          { s with
            msg := clearedMsg s, parser := { s.parser with idx := 0 }, lastStatus := 0x02#8, ret := .status 0x02#8 })

/-- R124 to R127: a byte that ends no check is stored at `SB[idx]`, and a checksum or the properties are captured when
`idx` reaches 4, 6 or 8. -/
def Obligations.PushByteAccumulates : Prop :=
  ∀ (s : State) (b : Byte), s.fault = 0x00#8 → 2 ≤ s.parser.idx → s.parser.idx < s.cfg.bufCap → s.parser.idx ≠ 9 →
    s.parser.idx ≠ 11 → (12 ≤ s.parser.idx → s.parser.idx + 1 ≠ 12 + s.parser.capLen.toNat) →
      exec (.pushByte b) s =
        .next
          { s with
            msg := clearedMsg s
            parser :=
              { s.parser with
                sb := s.parser.sb.write s.parser.idx b
                idx := s.parser.idx + 1
                capHck :=
                  if s.parser.idx = 3 then (s.parser.sb.write s.parser.idx b).rd16 2 else s.parser.capHck
                capPck :=
                  if s.parser.idx = 5 then (s.parser.sb.write s.parser.idx b).rd16 4 else s.parser.capPck
                capProps :=
                  if s.parser.idx = 7 then (s.parser.sb.write s.parser.idx b).rd16 6 else s.parser.capProps }
            lastStatus := 0x00#8, ret := .status 0x00#8 }

/-- R128: the byte that brings `idx` to 10 captures the command code; a code outside `KNOWN` drops the frame. -/
def Obligations.PushByteChecksCommandCode : Prop :=
  ∀ (s : State) (b : Byte) (c : U16), s.fault = 0x00#8 → s.parser.idx = 9 → 9 < s.cfg.bufCap →
    c = (s.parser.sb.write 9 b).rd16 8 →
      exec (.pushByte b) s =
        .next
          (if c ∈ [0xFF03#16, 0xFF05#16, 0xFF08#16] then
            { s with
              msg := clearedMsg s, parser := { s.parser with sb := s.parser.sb.write 9 b, idx := 10, capCmd := c }
              lastStatus := 0x00#8, ret := .status 0x00#8 }
          else
            { s with
              msg := clearedMsg s, parser := { s.parser with sb := s.parser.sb.write 9 b, idx := 0, capCmd := c }
              lastStatus := 0x04#8, ret := .status 0x04#8 })

/-- R129, R130: the byte that brings `idx` to 12 captures the length and makes both tests; either failure drops the frame
with its own bit set, and both can fail on one byte. A frame that passes and has a payload goes on. -/
def Obligations.PushByteChecksHeader : Prop :=
  ∀ (s : State) (b : Byte) (len : U16) (sb : Memory), s.fault = 0x00#8 → s.parser.idx = 11 → 11 < s.cfg.bufCap →
    sb = s.parser.sb.write 11 b → len = sb.rd16 10 →
      (LengthBroken s.cfg s.parser.capCmd len ∨ cksum16 (sb.readRange 6 6) ≠ s.parser.capHck → ∃ st,
        st = (if LengthBroken s.cfg s.parser.capCmd len then 0x08#8 else 0x00#8) |||
          (if cksum16 (sb.readRange 6 6) ≠ s.parser.capHck then 0x10#8 else 0x00#8) ∧
        exec (.pushByte b) s =
          .next
            { s with
              msg := clearedMsg s, parser := { s.parser with sb := sb, idx := 0, capLen := len }
              lastStatus := st, ret := .status st }) ∧
        (¬LengthBroken s.cfg s.parser.capCmd len → cksum16 (sb.readRange 6 6) = s.parser.capHck → len ≠ 0#16 →
          exec (.pushByte b) s =
            .next
              { s with
                msg := clearedMsg s, parser := { s.parser with sb := sb, idx := 12, capLen := len }
                lastStatus := 0x00#8, ret := .status 0x00#8 })

/-- R131 to R135: the last payload byte. The frame is consumed in every outcome; a checksum mismatch is `E_PCK` and
nothing is decoded; a decoded payload commits the message with `DONE`; a JSON text that does not parse is a content
error. -/
def Obligations.PushByteCompletesFrame : Prop :=
  ∀ (s : State) (b : Byte) (sb : Memory) (pay : List Byte) (t : State), s.fault = 0x00#8 → 12 ≤ s.parser.idx →
    s.parser.idx < s.cfg.bufCap → s.parser.idx + 1 = 12 + s.parser.capLen.toNat →
    sb = s.parser.sb.write s.parser.idx b → pay = sb.readRange 12 s.parser.capLen.toNat →
    t = { s with parser := { s.parser with sb := sb, idx := 0 } } →
      (cksum16 pay ≠ s.parser.capPck →
        exec (.pushByte b) s =
          .next { t with msg := clearedMsg s, lastStatus := 0x20#8, ret := .status 0x20#8 }) ∧
      (cksum16 pay = s.parser.capPck →
        (s.parser.capCmd = 0xFF05#16 →
          exec (.pushByte b) s =
            .next
              { t with
                msg := { committedMsg s .stby with stby := decide (byteAt pay 0 ≠ 0x00#8) }
                lastStatus := 0x01#8, ret := .status 0x01#8 }) ∧
        (s.parser.capCmd = 0xFF08#16 →
          exec (.pushByte b) s =
            .next
              { t with
                msg :=
                  { committedMsg s .hb with
                    hb :=
                      { epoch := rd32 pay 0, serial := rd32 pay 4, volt := rd16 pay 8, temp := byteAt pay 10
                        mode := byteAt pay 11 } }
                lastStatus := 0x01#8, ret := .status 0x01#8 }) ∧
        (s.parser.capCmd = 0xFF03#16 → ∀ d, Config.jsonParse pay = some d →
          exec (.pushByte b) s =
            .next
              { t with
                msg := { committedMsg s .sar with sarDoc := d }
                lastStatus := 0x01#8, ret := .status 0x01#8 }) ∧
        (s.parser.capCmd = 0xFF03#16 → Config.jsonParse pay = none →
          exec (.pushByte b) s =
            .next
              { t with
                msg := { clearedMsg s with state := .contentInvalid }
                lastStatus := 0x40#8, ret := .status 0x40#8 }))

/-- R131: a zero-length JSON frame whose header checks pass completes on its 12th byte, with an empty payload. -/
def Obligations.ZeroLengthFrameCompletesOnTwelfthByte : Prop :=
  ∀ (s : State) (b : Byte) (sb : Memory) (t : State), s.fault = 0x00#8 → s.parser.idx = 11 → 11 < s.cfg.bufCap →
    sb = s.parser.sb.write 11 b → sb.rd16 10 = 0#16 → s.parser.capCmd = 0xFF03#16 →
    cksum16 (sb.readRange 6 6) = s.parser.capHck →
    t = { s with parser := { s.parser with sb := sb, idx := 0, capLen := 0#16 } } →
      (s.parser.capPck ≠ 0#16 →
        exec (.pushByte b) s =
          .next { t with msg := clearedMsg s, lastStatus := 0x20#8, ret := .status 0x20#8 }) ∧
      (s.parser.capPck = 0#16 → Config.jsonParse [] = none →
        exec (.pushByte b) s =
          .next
            { t with
              msg := { clearedMsg s with state := .contentInvalid }, lastStatus := 0x40#8, ret := .status 0x40#8 }) ∧
      (s.parser.capPck = 0#16 → ∀ d, Config.jsonParse [] = some d →
        exec (.pushByte b) s =
          .next
            { t with
              msg := { committedMsg s .sar with plen := 0#16, sarDoc := d }
              lastStatus := 0x01#8, ret := .status 0x01#8 })

/-- R137: the status words of `PUSH_BYTE`, in every state; it is `REFUSED` exactly while faulted. -/
def Obligations.PushByteStatusWords : Prop :=
  ∀ (s t : State) (b : Byte), exec (.pushByte b) s = .next t → ∃ st, t.ret = .status st ∧
    st ∈ [0x00#8, 0x01#8, 0x02#8, 0x04#8, 0x08#8, 0x10#8, 0x18#8, 0x20#8, 0x40#8, 0x80#8] ∧
    (st = 0x80#8 ↔ s.fault ≠ 0x00#8) ∧ (s.fault = 0x00#8 → t.lastStatus = st)

/-- R122, R133, R134: after a pushed byte the message is readable exactly when the byte returned `DONE`; a content error
marks it invalid; every other byte leaves it empty. Nothing a setter built survives. -/
def Obligations.PushByteLeavesMessageReadableOnlyOnDone : Prop :=
  ∀ (s t : State) (b : Byte), s.fault = 0x00#8 → exec (.pushByte b) s = .next t →
    t.msg.state = (if t.lastStatus = 0x01#8 then .valid else if t.lastStatus = 0x40#8 then .contentInvalid else .empty) ∧
      t.msg.propsW = decide (t.lastStatus = 0x01#8) ∧ t.msg.cmdW = decide (t.lastStatus = 0x01#8) ∧
      (t.msg.tag ≠ .none ↔ t.lastStatus = 0x01#8)

/-- The frame of `PUSH_BYTE`: of `SB` it writes the byte at `idx` at most, and it leaves the output buffer, `FAULT` and
what the host has issued as they were (R50, R56). -/
def Obligations.PushByteFrame : Prop :=
  ∀ (s t : State) (b : Byte), exec (.pushByte b) s = .next t →
    (∀ a, a ≠ s.parser.idx → t.parser.sb.read a = s.parser.sb.read a) ∧ t.out = s.out ∧ t.fault = s.fault ∧
      t.cfg = s.cfg ∧ t.port = s.port ∧ t.docs = s.docs

/-- R146: in a state that meets the invariant every pushed byte has an address in `SB`, and `PUSH_BYTE` completes. -/
def Obligations.PushByteAlwaysCompletes : Prop :=
  ∀ (s : State) (b : Byte), BlockInv s → s.parser.idx < s.cfg.bufCap ∧ ∃ t, exec (.pushByte b) s = .next t

/-! The frame commands. -/

/-- R181, R185, R188 with R133 and R134: the command of a complete frame decodes the payload that stands in `SB` and
commits the message, or marks it invalid. -/
def Obligations.FrameCommandsDecodePayload : Prop :=
  ∀ s t : State, s.fault = 0x00#8 → t = { s with parser := { s.parser with idx := 0 } } →
    (s.frameReady 0xFF05#16 = true →
      exec .setStandbyState s =
        .next
          { t with
            msg := { committedMsg s .stby with stby := decide (s.parser.sb.read 12 ≠ 0x00#8) }
            lastStatus := 0x01#8, ret := .status 0x01#8 }) ∧
    (s.frameReady 0xFF08#16 = true →
      exec .heartbeat s =
        .next
          { t with
            msg := { committedMsg s .hb with hb := hbDecode (s.parser.sb.readRange 12 s.parser.capLen.toNat) }
            lastStatus := 0x01#8, ret := .status 0x01#8 }) ∧
    (s.frameReady 0xFF03#16 = true → ∀ d,
      Config.jsonParse (s.parser.sb.readRange 12 s.parser.capLen.toNat) = some d →
      exec .setSarMode s =
        .next
          { t with
            msg := { committedMsg s .sar with sarDoc := d }, lastStatus := 0x01#8, ret := .status 0x01#8 }) ∧
    (s.frameReady 0xFF03#16 = true →
      Config.jsonParse (s.parser.sb.readRange 12 s.parser.capLen.toNat) = none →
      exec .setSarMode s =
        .next
          { t with
            msg := { clearedMsg s with state := .contentInvalid }
            lastStatus := 0x40#8, ret := .status 0x40#8 })

/-- Where no complete frame of its command stands in `SB` a frame command changes nothing and returns no value, and no
such frame stands there between operations (the model's choice, log entry 9). -/
def Obligations.FrameCommandsNeedCompleteFrame : Prop :=
  ∀ s : State,
    (s.fault = 0x00#8 → s.frameReady 0xFF03#16 = false → exec .setSarMode s = .next { s with ret := .none }) ∧
      (s.fault = 0x00#8 → s.frameReady 0xFF05#16 = false → exec .setStandbyState s = .next { s with ret := .none }) ∧
      (s.fault = 0x00#8 → s.frameReady 0xFF08#16 = false → exec .heartbeat s = .next { s with ret := .none }) ∧
      (BlockInv s → ∀ c, s.frameReady c = false)

/-- R131 to R135: `PUSH_BYTE` of the last payload byte is the frame's command run on the frame then complete in `SB`.
(The frame command as an instruction is the model's choice, log entry 9. A frame of no payload bytes, which its header's
last byte completes, is `ZeroLengthFrameCompletesOnTwelfthByte`.) -/
def Obligations.LastByteRunsFrameCommand : Prop :=
  ∀ (s u : State) (b : Byte) (i : Instr), s.fault = 0x00#8 → 12 ≤ s.parser.idx → s.parser.idx < s.cfg.bufCap →
    u = { s with parser := { s.parser with sb := s.parser.sb.write s.parser.idx b, idx := s.parser.idx + 1 } } →
    u.frameReady u.parser.capCmd = true → decodeCommand u.parser.capCmd = some i →
      exec (.pushByte b) s = exec i u

/-! `FEED`. -/

/-- R140, R141: `FEED` is `PUSH_BYTE` on its bytes in order, up to the first that returns `DONE` or to the end. It
returns whether a byte returned `DONE`, how many bytes it consumed, the bytes after them, and the OR of the status words
of those it consumed. An absent operand faults with `NULL_OPERAND`; while faulted it is refused. -/
def Obligations.FeedPushesUntilDone : Prop :=
  encode (.feed none) = [0x02#8, 0xFF#8, 0xFF#8] ∧
    ∀ s : State,
      (s.fault = 0x00#8 → exec (.feed none) s = .next { s with fault := 6#8, ret := .faulted }) ∧
      (s.fault ≠ 0x00#8 → ∀ o, exec (.feed o) s = .next { s with ret := .feed false 0 (o.getD []) 0x80#8 }) ∧
      ∀ bs : List Byte, BlockInv s → s.fault = 0x00#8 → ∃ t u k found,
        exec (.feed (some bs)) s = .next t ∧ t.ret = .feed found k (bs.drop k) (pushDiag (bs.take k) s) ∧
          k ≤ bs.length ∧ pushAll (bs.take k) s = .next u ∧ SameBlock u t ∧
          (found = false → k = bs.length) ∧ (found = true → 0 < k ∧ t.lastStatus = 0x01#8) ∧
          ∀ j v, 0 < j → (j < k ∨ found = false ∧ j = k) → pushAll (bs.take j) s = .next v → v.lastStatus ≠ 0x01#8

/-- R142: feeding a string in two pieces leaves the same block as feeding it whole, and the results add up. -/
def Obligations.FeedIsChunkingIndependent : Prop :=
  ∀ (s t u : State) (a b r r' : List Byte) (n n' : Nat) (found : Bool) (d d' : Byte), s.fault = 0x00#8 →
    exec (.feed (some a)) s = .next t → t.ret = .feed false n r d →
    exec (.feed (some b)) t = .next u → u.ret = .feed found n' r' d' →
      ∃ v, exec (.feed (some (a ++ b))) s = .next v ∧ v.ret = .feed found (a.length + n') r' (d ||| d') ∧ SameBlock v u

/-! The serializer. -/

/-- R160 to R166: `SERIALIZE` of a populated message returns the frame and its length, puts it in the output buffer byte
for byte, and changes nothing else; of any other message it faults with `SERIALIZE_INCOMPLETE`; while faulted it is
refused. -/
def Obligations.SerializeLaysOutFrame : Prop :=
  encode .serialize = [0x20#8] ∧
    ∀ s : State,
      (s.fault ≠ 0x00#8 → exec .serialize s = .next { s with ret := .refused }) ∧
      (s.fault = 0x00#8 →
        ¬((s.msg.state = .valid ∨ s.msg.state = .building) ∧ s.msg.propsW = true ∧ s.msg.cmdW = true ∧
          s.msg.tag ≠ .none) → exec .serialize s = .next { s with fault := 5#8, ret := .faulted }) ∧
      (BlockInv s → s.fault = 0x00#8 → (s.msg.state = .valid ∨ s.msg.state = .building) → s.msg.propsW = true →
        s.msg.cmdW = true → s.msg.tag ≠ .none → ∃ (o : List Byte) (out : OutRegs),
          exec .serialize s = .next { s with out := out, ret := .output o (12 + s.msg.plen.toNat) } ∧
          out.outLen = 12 + s.msg.plen.toNat ∧ out.outValid = true ∧ o.length = 12 + s.msg.plen.toNat ∧
          (∀ a, out.ob.read a = byteAt o a) ∧
          o.take 2 = [0x54#8, 0x54#8] ∧ rd16 o 2 = cksum16 ((o.drop 6).take 6) ∧ rd16 o 4 = cksum16 (o.drop 12) ∧
          rd16 o 6 = s.msg.props ∧ rd16 o 8 = s.msg.cmd ∧ rd16 o 10 = s.msg.plen ∧
          o.drop 12 = s.encodePayload)

/-- R182, R186, R189, R190: what `encodePayload` gives for each variant. -/
def Obligations.PayloadEncodings : Prop :=
  ∀ s : State,
    (s.msg.tag = .stby → s.encodePayload = [if s.msg.stby then 0x01#8 else 0x00#8]) ∧
      (s.msg.tag = .sar →
        s.encodePayload =
          (Config.jsonRender s.msg.sarDoc).take (min (Config.jsonRender s.msg.sarDoc).length s.msg.plen.toNat) ++
            List.replicate
              (s.msg.plen.toNat - min (Config.jsonRender s.msg.sarDoc).length s.msg.plen.toNat) 0x00#8) ∧
      (s.msg.tag = .hb → 12 ≤ s.cfg.hbLen → s.cfg.hbEncMode = .symmetric →
        s.encodePayload =
          le32 s.msg.hb.epoch ++ le32 s.msg.hb.serial ++ le16 s.msg.hb.volt ++ [s.msg.hb.temp] ++ [s.msg.hb.mode] ++
            List.replicate (s.cfg.hbLen - 12) 0x00#8) ∧
      (s.msg.tag = .hb → s.cfg.hbEncMode = .legacyDup →
        s.encodePayload =
          (le32 s.msg.hb.epoch ++ le32 s.msg.hb.epoch ++ le32 s.msg.hb.serial ++ le16 s.msg.hb.volt ++
            [s.msg.hb.temp] ++ [s.msg.hb.mode]).take s.cfg.hbLen ++
            List.replicate (s.cfg.hbLen - min s.cfg.hbLen 16) 0x00#8)

/-- R168: a second `SERIALIZE` gives the same frame and leaves the same state. -/
def Obligations.SerializeTwiceIsSerializeOnce : Prop :=
  ∀ s t : State, exec .serialize s = .next t → t.fault = 0x00#8 → exec .serialize t = .next t

/-- R170: with a serialization held `GET_OUT` returns its bytes and its length and writes nothing; with none it faults
with `READ_UNAVAILABLE`; while faulted it is refused. -/
def Obligations.GetOutReturnsOutputBuffer : Prop :=
  encode .getOut = [0x21#8] ∧
    ∀ s : State,
      (s.fault = 0x00#8 → s.out.outValid = true → ∃ o : List Byte, o.length = s.out.outLen ∧
        (∀ a, a < s.out.outLen → byteAt o a = s.out.ob.read a) ∧
          exec .getOut s = .next { s with ret := .output o s.out.outLen }) ∧
      (s.fault = 0x00#8 → s.out.outValid = false → exec .getOut s = .next { s with fault := 4#8, ret := .faulted }) ∧
      (s.fault ≠ 0x00#8 → exec .getOut s = .next { s with ret := .refused })

/-- R170, R64: as long as the output buffer is not written again, `GET_OUT` returns what `SERIALIZE` returned, whatever
else has changed. -/
def Obligations.GetOutReturnsLastSerialization : Prop :=
  ∀ (s t u : State) (o : List Byte) (n : Nat), exec .serialize s = .next t → t.ret = .output o n → u.out = t.out →
    u.fault = 0x00#8 → exec .getOut u = .next { u with ret := .output o n }

/-- R64: no instruction but `SERIALIZE` and `RESET` changes the output buffer. -/
def Obligations.OnlySerializeAndResetWriteOutput : Prop :=
  ∀ (i : Instr) (s t : State), i ≠ .serialize → i ≠ .reset → exec i s = .next t → t.out = s.out

/-- R188, R189, R193: the symmetric Heartbeat encoding round-trips; the legacy one reads the serial number back as the
epoch and the other three fields from the serial number's bytes. -/
def Obligations.HeartbeatCodecRoundTrip : Prop :=
  ∀ (cfg : Config) (r : HbRecord), 12 ≤ cfg.hbLen →
    (cfg.hbEncMode = .symmetric → hbDecode (hbEncode cfg r) = r) ∧
      (cfg.hbEncMode = .legacyDup → cfg.hbLen = 15 →
        hbDecode (hbEncode cfg r) =
          { epoch := r.epoch, serial := r.epoch, volt := r.serial.extractLsb' 0 16
            temp := r.serial.extractLsb' 16 8, mode := r.serial.extractLsb' 24 8 })

/-- R169: a populated message, serialized, and its frame fed from `idx = 0`, comes back the same: the last byte returns
`DONE`, no other byte an error, and MSG holds the same message, valid (under `LEGACY_DUP` a Heartbeat's header fields
only). -/
def Obligations.SerializeThenFeedRoundTrips : Prop :=
  ∀ (s t : State) (o : List Byte) (n : Nat), BlockInv s → RoundTrips s → s.parser.idx = 0 → exec .serialize s = .next t →
    t.ret = .output o n →
      ∃ u, exec (.feed (some o)) t = .next u ∧ u.ret = .feed true n [] 0x01#8 ∧ u.lastStatus = 0x01#8 ∧
        u.parser.idx = 0 ∧ u.msg.state = .valid ∧ u.msg.propsW = true ∧ u.msg.cmdW = true ∧ SameMessage s.cfg u.msg s.msg

/-! Rejection of corrupted frames. -/

/-- R116 with R115 law 3: a single-bit flip among the header bytes [6,12) of a frame with a known command is rejected
before a payload byte arrives: the 12 bytes give `E_CMD` (0x04) when it lies in the command code, else `E_HCK` (0x10),
and no message. -/
def Obligations.HeaderBitFlipIsRejected : Prop :=
  ∀ (s : State) (p c len : U16) (pay : List Byte) (j k : Nat), BlockInv s → s.fault = 0x00#8 → s.parser.idx = 0 →
    c ∈ [0xFF03#16, 0xFF05#16, 0xFF08#16] → 6 ≤ j → j < 12 → k < 8 →
      ∃ t diag,
        exec (.feed (some (((frameBytes p c len pay).take 12).modify j (· ^^^ (1#8 <<< k))))) s = .next t ∧
          t.ret = .feed false 12 [] diag ∧ diag &&& (if j = 8 ∨ j = 9 then 0x04#8 else 0x10#8) ≠ 0x00#8 ∧
          t.msg.state = .empty

/-- R115 law 3 with R132: a single-bit flip in the payload of a frame is rejected with `E_PCK`, and no message is
delivered. -/
def Obligations.PayloadBitFlipIsRejected : Prop :=
  ∀ (s : State) (p c : U16) (pay : List Byte) (j k : Nat), BlockInv s → s.fault = 0x00#8 → s.parser.idx = 0 →
    c ∈ [0xFF03#16, 0xFF05#16, 0xFF08#16] → pay.length ≤ 65535 →
    ¬LengthBroken s.cfg c (BitVec.ofNat 16 pay.length) → j < pay.length → k < 8 →
      ∃ t,
        exec (.feed (some ((frame p c pay).modify (12 + j) (· ^^^ (1#8 <<< k))))) s = .next t ∧
          t.ret = .feed false (12 + pay.length) [] 0x20#8 ∧ t.lastStatus = 0x20#8 ∧ t.msg.state = .empty ∧
          t.parser.idx = 0

/-! Invariants. -/

/-- The reset state meets the invariant. -/
def Obligations.ResetMeetsInvariant : Prop :=
  BlockInv State.reset

/-- Every step keeps the invariant, from every state that meets it. -/
def Obligations.StepKeepsInvariant : Prop :=
  ∀ s t : State, BlockInv s → step s = .next t → BlockInv t

/-- R146, R31, R271: from a state that meets the invariant a step always has a next state: no byte of `SB` or `OB` is
missing and nothing is refused. -/
def Obligations.InvariantStateAlwaysSteps : Prop :=
  ∀ s : State, BlockInv s → ∃ t, step s = .next t

/-- R30: its seven invariants hold in every state a host can bring the block to from reset, under any configuration that
meets R8 and log entry 3. -/
def Obligations.ReachedStatesMeetMessageInvariants : Prop :=
  ∀ s : State, Reached s →
    (s.msg.state = .empty ∨ s.msg.state = .contentInvalid →
        s.msg.propsW = false ∧ s.msg.cmdW = false ∧ s.msg.tag = .none) ∧
      (s.msg.cmdW = true → s.msg.cmd ∈ [0xFF03#16, 0xFF05#16, 0xFF08#16]) ∧
      (s.msg.tag ≠ .none → s.msg.cmdW = true ∧ variantOf s.msg.cmd = s.msg.tag) ∧
      (s.msg.tag = .stby → s.msg.plen = 1#16) ∧ (s.msg.tag = .hb → s.msg.plen.toNat = s.cfg.hbLen) ∧
      (s.msg.tag = .sar → s.msg.plen.toNat ≤ max s.cfg.sarMaxLen s.cfg.sarParseLimit) ∧
      (s.msg.state = .valid → s.msg.propsW = true ∧ s.msg.cmdW = true ∧ s.msg.tag ≠ .none)

/-- R35, R36: no operation can observe what R35 gives "no value". Two states that meet the invariant and differ at most
there take every instruction to the same result and to states that again differ at most there. (So the values log
entries 1 and 7 name for them are never seen.) -/
def Obligations.UnheldValuesAreUnobservable : Prop :=
  ∀ (i : Instr) (s t s' : State), BlockInv s → BlockInv t → Agree s t → exec i s = .next s' →
    ∃ t', exec i t = .next t' ∧ Agree s' t'
end

