-- ==== Sys2Proof/Laws/Memory.lean ====
section
/-! SUPPORT. Laws of the byte-addressed spaces: every memory operation keeps the canonical form; reading after writing. -/

namespace Sys2Proof.Machine

theorem Memory.wfFrom_mono {lo hi : Nat} (h : lo ≤ hi) {m : Memory} (hm : m.wfFrom hi = true) : m.wfFrom lo = true := by
  cases m with
  | nil => rfl
  | cons c m =>
    simp only [Memory.wfFrom, Bool.and_eq_true, decide_eq_true_eq] at hm ⊢
    exact ⟨⟨by omega, hm.1.2⟩, hm.2⟩

/-- Below the first address of a canonical memory every byte reads 0. -/
theorem Memory.read_below {lo a : Nat} {m : Memory} (hm : m.wfFrom lo = true) (ha : a < lo) : m.read a = 0#8 := by
  induction m generalizing lo with
  | nil => rfl
  | cons c m ih =>
    simp only [Memory.wfFrom, Bool.and_eq_true, decide_eq_true_eq] at hm
    rw [Memory.read, if_neg (by omega)]
    exact ih hm.2 (by omega)

theorem Memory.write_wfFrom {lo a : Nat} {m : Memory} (v : Byte) (hm : m.wfFrom lo = true) (ha : lo ≤ a) :
    (m.write a v).wfFrom lo = true := by
  induction m generalizing lo with
  | nil => unfold Memory.write; split <;> simp_all [Memory.wfFrom]
  | cons c m ih =>
    have hm' := hm
    simp only [Memory.wfFrom, Bool.and_eq_true, decide_eq_true_eq] at hm
    unfold Memory.write
    split
    · split
      · exact hm'
      · simp_all [Memory.wfFrom]
    · split
      · split
        · exact Memory.wfFrom_mono (by omega) hm.2
        · simp_all [Memory.wfFrom]
      · simp only [Memory.wfFrom, Bool.and_eq_true, decide_eq_true_eq]
        exact ⟨hm.1, ih hm.2 (by omega)⟩

/-- A write keeps the canonical form. -/
theorem Memory.write_wf {m : Memory} (a : Nat) (v : Byte) (hm : m.wf = true) : (m.write a v).wf = true :=
  Memory.write_wfFrom v hm (Nat.zero_le a)

theorem Memory.ofBytes_wfFrom (a : Nat) (bs : List Byte) : (Memory.ofBytes a bs).wfFrom a = true := by
  induction bs generalizing a with
  | nil => rfl
  | cons b bs ih =>
    unfold Memory.ofBytes
    split
    · exact Memory.wfFrom_mono (Nat.le_succ a) (ih (a + 1))
    · simp_all [Memory.wfFrom]

/-- A memory made of a byte string has the canonical form. -/
theorem Memory.ofBytes_wf (a : Nat) (bs : List Byte) : (Memory.ofBytes a bs).wf = true :=
  Memory.wfFrom_mono (Nat.zero_le a) (Memory.ofBytes_wfFrom a bs)

/-- Every listed address of a written memory is the written one or was listed before. -/
theorem Memory.mem_write {m : Memory} {a : Nat} {v : Byte} {c : Host.Cell} (h : c ∈ m.write a v) :
    c.1 = a ∨ c ∈ m := by
  induction m with
  | nil => unfold Memory.write at h; split at h <;> simp_all
  | cons d m ih =>
    unfold Memory.write at h
    split at h
    · split at h
      · exact .inr h
      · rcases List.mem_cons.mp h with rfl | h
        · exact .inl rfl
        · exact .inr h
    · split at h
      · split at h
        · exact .inr (List.mem_cons_of_mem d h)
        · rcases List.mem_cons.mp h with rfl | h
          · exact .inl rfl
          · exact .inr (List.mem_cons_of_mem d h)
      · rcases List.mem_cons.mp h with rfl | h
        · exact .inr List.mem_cons_self
        · exact (ih h).imp_right (List.mem_cons_of_mem d)

/-- Every listed address of a memory made of a byte string lies in the string. -/
theorem Memory.mem_ofBytes {a : Nat} {bs : List Byte} {c : Host.Cell} (h : c ∈ Memory.ofBytes a bs) :
    a ≤ c.1 ∧ c.1 < a + bs.length := by
  induction bs generalizing a with
  | nil => simp [Memory.ofBytes] at h
  | cons b bs ih =>
    unfold Memory.ofBytes at h
    split at h
    · have := ih h; simp only [List.length_cons]; omega
    · rcases List.mem_cons.mp h with rfl | h
      · simp
      · have := ih h; simp only [List.length_cons]; omega

theorem Memory.read_write_same {m : Memory} {lo : Nat} (a : Nat) (v : Byte) (hm : m.wfFrom lo = true) :
    (m.write a v).read a = v := by
  induction m generalizing lo with
  | nil => unfold Memory.write; split <;> simp_all [Memory.read]
  | cons c m ih =>
    simp only [Memory.wfFrom, Bool.and_eq_true, decide_eq_true_eq] at hm
    unfold Memory.write
    split
    · next hlt =>
      split
      · next hv =>
        rw [hv, Memory.read, if_neg (by omega)]
        exact Memory.read_below hm.2 (by omega)
      · simp [Memory.read]
    · split
      · next heq =>
        split
        · next hv => rw [hv, heq]; exact Memory.read_below hm.2 (by omega)
        · simp [Memory.read]
      · rw [Memory.read, if_neg (by omega)]; exact ih hm.2

theorem Memory.read_write_other {m : Memory} {a b : Nat} (v : Byte) (h : b ≠ a) :
    (m.write a v).read b = m.read b := by
  induction m with
  | nil => unfold Memory.write; split <;> simp_all [Memory.read, Ne.symm h]
  | cons c m ih =>
    unfold Memory.write
    split
    · split
      · rfl
      · conv_lhs => rw [Memory.read, if_neg (Ne.symm h)]
    · split
      · next heq =>
        have hc : c.1 ≠ b := by omega
        split
        · conv_rhs => rw [Memory.read, if_neg hc]
        · conv_lhs => rw [Memory.read, if_neg (Ne.symm h)]
          conv_rhs => rw [Memory.read, if_neg hc]
      · simp only [Memory.read, ih]

@[simp] theorem Memory.readRange_length (m : Memory) (a n : Nat) : (m.readRange a n).length = n := by
  induction n generalizing a with
  | zero => rfl
  | succ n ih => simp [Memory.readRange, ih]

/-- A range is a function of the bytes it covers. -/
theorem Memory.readRange_congr {m k : Memory} {a n : Nat} (h : ∀ i, a ≤ i → i < a + n → m.read i = k.read i) :
    m.readRange a n = k.readRange a n := by
  induction n generalizing a with
  | zero => rfl
  | succ n ih =>
    rw [Memory.readRange, Memory.readRange, h a (Nat.le_refl a) (by omega),
      ih fun i hi hj => h i (by omega) (by omega)]

/-- A write outside a range leaves it as it was. -/
theorem Memory.readRange_write {m : Memory} {a n i : Nat} (v : Byte) (h : i < a ∨ a + n ≤ i) :
    (m.write i v).readRange a n = m.readRange a n :=
  Memory.readRange_congr fun j hj hk => Memory.read_write_other v (by omega)

/-- A field is a function of its two bytes. -/
theorem Memory.rd16_congr {m k : Memory} {o : Nat} (h : ∀ i, o ≤ i → i < o + 2 → m.read i = k.read i) :
    m.rd16 o = k.rd16 o := by
  rw [Memory.rd16, Memory.rd16, Memory.readRange_congr h]

theorem Memory.rd16_write {m : Memory} {o i : Nat} (v : Byte) (h : i < o ∨ o + 2 ≤ i) :
    (m.write i v).rd16 o = m.rd16 o := by
  rw [Memory.rd16, Memory.rd16, Memory.readRange_write v h]

theorem Memory.readRange_succ (m : Memory) (a n : Nat) :
    m.readRange a (n + 1) = m.readRange a n ++ [m.read (a + n)] := by
  induction n generalizing a with
  | zero => simp [Memory.readRange]
  | succ n ih =>
    have h := ih (a + 1)
    rw [Memory.readRange, h]
    conv_rhs => rw [Memory.readRange]
    rw [List.cons_append, Nat.add_assoc, Nat.add_comm 1 n]

theorem Memory.read_ofBytes (a i : Nat) (bs : List Byte) : (Memory.ofBytes a bs).read (a + i) = byteAt bs i := by
  induction bs generalizing a i with
  | nil => simp [Memory.ofBytes, Memory.read, byteAt]
  | cons b bs ih =>
    unfold Memory.ofBytes
    cases i with
    | zero =>
      split
      · next h =>
        rw [Memory.read_below (Memory.ofBytes_wfFrom (a + 1) bs) (by omega)]
        simp [byteAt, h]
      · simp [Memory.read, byteAt]
    | succ i =>
      have h := ih (a + 1) i
      rw [show a + 1 + i = a + (i + 1) by omega] at h
      split
      · rw [h]; simp [byteAt]
      · rw [Memory.read, if_neg (by simp), h]; simp [byteAt]

/-- Reading back a whole byte string. -/
theorem Memory.readRange_ofBytes (a : Nat) (bs : List Byte) : (Memory.ofBytes a bs).readRange a bs.length = bs := by
  apply List.ext_getElem (by simp)
  have key : ∀ (m : Memory) (n a i : Nat) (h : i < (m.readRange a n).length), (m.readRange a n)[i] = m.read (a + i) := by
    intro m n
    induction n with
    | zero => intro a i h; simp [Memory.readRange] at h
    | succ n ih =>
      intro a i h
      cases i with
      | zero => simp [Memory.readRange]
      | succ i =>
        have h' : i < (m.readRange (a + 1) n).length := by simpa [Memory.readRange] using h
        simp only [Memory.readRange, List.getElem_cons_succ, ih (a + 1) i h']
        congr 1; omega
  intro i h₁ h₂
  rw [key, Memory.read_ofBytes, byteAt, List.getD_eq_getElem?_getD, List.getElem?_eq_getElem h₂, Option.getD_some]

end Sys2Proof.Machine
end

