-- ==== Sys2Proof/Laws/Operands.lean ====
section
/-! SUPPORT. Laws of the operand forms and of the conditions behind the status bits. -/

namespace Sys2Proof.Machine

@[simp] theorem le16_length (v : U16) : (le16 v).length = 2 := rfl

@[simp] theorem le32_length (v : U32) : (le32 v).length = 4 := rfl

@[simp] theorem byteAt_cons_zero (b : Byte) (bs : List Byte) : byteAt (b :: bs) 0 = b := rfl

@[simp] theorem byteAt_cons_succ (b : Byte) (bs : List Byte) (i : Nat) : byteAt (b :: bs) (i + 1) = byteAt bs i := by
  simp [byteAt]

theorem byteAt_append_left {bs cs : List Byte} {i : Nat} (h : i < bs.length) : byteAt (bs ++ cs) i = byteAt bs i := by
  rw [byteAt, byteAt, List.getD_append bs cs 0#8 i h]

theorem byteAt_append_right {bs cs : List Byte} {i : Nat} (h : bs.length ≤ i) :
    byteAt (bs ++ cs) i = byteAt cs (i - bs.length) := by
  rw [byteAt, byteAt, List.getD_append_right bs cs 0#8 i h]

/-- A field is a function of its two bytes. -/
theorem rd16_congr {s t : List Byte} {o p : Nat} (h₀ : byteAt s o = byteAt t p) (h₁ : byteAt s (o + 1) = byteAt t (p + 1)) :
    rd16 s o = rd16 t p := by
  rw [rd16, rd16, h₀, h₁]

theorem rd32_congr {s t : List Byte} {o p : Nat} (h : ∀ k, k < 4 → byteAt s (o + k) = byteAt t (p + k)) :
    rd32 s o = rd32 t p := by
  have h₀ := h 0 (by omega)
  simp only [Nat.add_zero] at h₀
  rw [rd32, rd32, h₀, h 1 (by omega), h 2 (by omega), h 3 (by omega)]

/-- The two bytes of a u16, assembled again. -/
theorem join16 (v : U16) : (v.extractLsb' 0 8).setWidth 16 ||| (v.extractLsb' 8 8).setWidth 16 <<< 8 = v := by
  ext i hi
  simp only [BitVec.getElem_or, BitVec.getElem_setWidth, BitVec.getElem_shiftLeft, BitVec.getLsbD_extractLsb']
  rcases Nat.lt_or_ge i 8 with h | h
  · simp [h, BitVec.getLsbD_eq_getElem hi]
  · have h8 : i - 8 < 8 := by omega
    simp [h8, show ¬ i < 8 by omega, show 8 + (i - 8) = i by omega, BitVec.getLsbD_eq_getElem hi]

/-- `rd16` undoes `LE16`. -/
@[simp] theorem rd16_le16 (v : U16) (rest : List Byte) : rd16 (le16 v ++ rest) 0 = v :=
  join16 v

/-- `LE16` undoes `rd16`: the two are inverse, so no bit of a field is dropped. -/
theorem le16_rd16 (a b : Byte) (rest : List Byte) : le16 (rd16 (a :: b :: rest) 0) = [a, b] := by
  simp only [rd16, le16, byteAt_cons_zero, byteAt_cons_succ, List.cons.injEq, and_true]
  constructor
  · ext i hi
    simp [show i < 16 by omega, hi]
  · ext i hi
    simp [show 8 + i < 16 by omega, show ¬ 8 + i < 8 by omega, hi]

/-- `rd32` undoes `LE32`. -/
@[simp] theorem rd32_le32 (v : U32) (rest : List Byte) : rd32 (le32 v ++ rest) 0 = v := by
  change (v.extractLsb' 0 8).setWidth 32 ||| (v.extractLsb' 8 8).setWidth 32 <<< 8 |||
    (v.extractLsb' 16 8).setWidth 32 <<< 16 ||| (v.extractLsb' 24 8).setWidth 32 <<< 24 = v
  ext i hi
  simp only [BitVec.getElem_or, BitVec.getElem_setWidth, BitVec.getElem_shiftLeft, BitVec.getLsbD_extractLsb']
  rcases Nat.lt_or_ge i 8 with h | h
  · simp [h, show i < 16 by omega, show i < 24 by omega, BitVec.getLsbD_eq_getElem hi]
  · rcases Nat.lt_or_ge i 16 with h1 | h1
    · simp [h1, show ¬ i < 8 by omega, show i - 8 < 8 by omega, show i < 24 by omega, show 8 + (i - 8) = i by omega,
        BitVec.getLsbD_eq_getElem hi]
    · rcases Nat.lt_or_ge i 24 with h2 | h2
      · simp [h2, show ¬ i < 8 by omega, show ¬ i - 8 < 8 by omega, show ¬ i < 16 by omega, show i - 16 < 8 by omega,
          show 16 + (i - 16) = i by omega, BitVec.getLsbD_eq_getElem hi]
      · simp [show ¬ i < 8 by omega, show ¬ i - 8 < 8 by omega, show ¬ i < 16 by omega, show ¬ i - 16 < 8 by omega,
          show ¬ i < 24 by omega, show i - 24 < 8 by omega, show 24 + (i - 24) = i by omega,
          BitVec.getLsbD_eq_getElem hi]

/-- A fitted byte string has exactly the length asked for. -/
@[simp] theorem fitTo_length (n : Nat) (bs : List Byte) : (fitTo n bs).length = n := by
  simp only [fitTo, List.length_append, List.length_take, List.length_replicate]; omega

theorem fitTo_of_length {n : Nat} {bs : List Byte} (h : bs.length = n) : fitTo n bs = bs := by
  simp [fitTo, ← h]

theorem fitTo_fitTo (n : Nat) (bs : List Byte) : fitTo n (fitTo n bs) = fitTo n bs :=
  fitTo_of_length (fitTo_length n bs)

/-- A fitted byte string begins with the bytes it was made of, as many as it holds. -/
theorem byteAt_fitTo {n i : Nat} {bs : List Byte} (h : i < n) : byteAt (fitTo n bs) i = byteAt bs i := by
  rcases Nat.lt_or_ge i bs.length with h' | h'
  · rw [fitTo, byteAt_append_left (by simp; omega)]
    simp [byteAt, List.getD_eq_getElem?_getD, h]
  · rw [fitTo, byteAt_append_right (by simp; omega)]
    simp [byteAt, List.getD_eq_getElem?_getD, List.getElem?_eq_none h', List.getElem?_replicate]
    split <;> rfl

/-- `variantOf` knows exactly the three command codes. -/
theorem variantOf_eq_sar {c : U16} : variantOf c = .sar ↔ c = cmdSar := by
  unfold variantOf; split <;> [simp_all; (split <;> [simp_all; (split <;> simp_all)])]

theorem variantOf_eq_stby {c : U16} : variantOf c = .stby ↔ c = cmdStby := by
  unfold variantOf; split
  · simp_all [cmdSar, cmdStby]
  · split <;> [simp_all; (split <;> simp_all)]

theorem variantOf_eq_hb {c : U16} : variantOf c = .hb ↔ c = cmdHb := by
  unfold variantOf; split
  · simp_all [cmdSar, cmdHb]
  · split
    · simp_all [cmdStby, cmdHb]
    · split <;> simp_all

theorem known_iff {c : U16} : known c = true ↔ variantOf c ≠ .none := by
  simp [known]

theorem known_eq_false {c : U16} : known c = false ↔ variantOf c = .none := by
  simp [known]

/-- The header status is one of four words (R130, R137). -/
theorem headerStatus_cases (cfg : Config) (c len hck : U16) (header : List Byte) :
    headerStatus cfg c len hck header ∈ [0x00#8, 0x08#8, 0x10#8, 0x18#8] := by
  unfold headerStatus
  split <;> split <;> decide

/-- The header status is clear exactly when both tests pass. -/
theorem headerStatus_eq_zero {cfg : Config} {c len hck : U16} {header : List Byte} :
    headerStatus cfg c len hck header = 0x00#8 ↔ lenBad cfg c len = false ∧ cksum16 header = hck := by
  unfold headerStatus
  constructor
  · intro h
    split at h <;> split at h <;> simp_all [stLen, stHck]
  · rintro ⟨h₁, h₂⟩; simp [h₁, h₂]

/-- Additivity (R115 law 2). -/
theorem cksum16_append (s t : List Byte) : cksum16 (s ++ t) = cksum16 s + cksum16 t := by
  simp [cksum16, BitVec.ofNat_add]

/-! Fields inside a byte string. -/

theorem byteAt_drop (bs : List Byte) (k i : Nat) : byteAt (bs.drop k) i = byteAt bs (k + i) := by
  simp [byteAt, List.getElem?_drop]

theorem rd16_drop (bs : List Byte) (k i : Nat) : rd16 (bs.drop k) i = rd16 bs (k + i) := by
  simp only [rd16, byteAt_drop, Nat.add_assoc]

theorem rd32_drop (bs : List Byte) (k i : Nat) : rd32 (bs.drop k) i = rd32 bs (k + i) := by
  simp only [rd32, byteAt_drop, Nat.add_assoc]

/-- The u16 that stands after `k` bytes. -/
theorem rd16_after {a : List Byte} {k : Nat} (h : a.length = k) (v : U16) (bs : List Byte) :
    rd16 (a ++ (le16 v ++ bs)) k = v := by
  have hd := rd16_drop (a ++ (le16 v ++ bs)) k 0
  rw [Nat.add_zero] at hd
  rw [← hd, ← h, List.drop_left, rd16_le16]

/-- The u32 that stands after `k` bytes. -/
theorem rd32_after {a : List Byte} {k : Nat} (h : a.length = k) (v : U32) (bs : List Byte) :
    rd32 (a ++ (le32 v ++ bs)) k = v := by
  have hd := rd32_drop (a ++ (le32 v ++ bs)) k 0
  rw [Nat.add_zero] at hd
  rw [← hd, ← h, List.drop_left, rd32_le32]

theorem byteAt_after {a : List Byte} {k : Nat} (h : a.length = k) (b : Byte) (bs : List Byte) :
    byteAt (a ++ (b :: bs)) k = b := by
  rw [byteAt_append_right (by omega), h, Nat.sub_self]; rfl

theorem rd16_fitTo {n i : Nat} {bs : List Byte} (h : i + 1 < n) : rd16 (fitTo n bs) i = rd16 bs i := by
  simp only [rd16, byteAt_fitTo h, byteAt_fitTo (show i < n by omega)]

theorem rd32_fitTo {n i : Nat} {bs : List Byte} (h : i + 3 < n) : rd32 (fitTo n bs) i = rd32 bs i := by
  simp only [rd32, byteAt_fitTo h, byteAt_fitTo (show i < n by omega), byteAt_fitTo (show i + 1 < n by omega),
    byteAt_fitTo (show i + 2 < n by omega)]

/-- `LE32` undoes `rd32`. -/
theorem le32_rd32 (a b c d : Byte) (rest : List Byte) : le32 (rd32 (a :: b :: c :: d :: rest) 0) = [a, b, c, d] := by
  simp only [rd32, le32, byteAt_cons_zero, byteAt_cons_succ, List.cons.injEq, and_true]
  refine ⟨?_, ?_, ?_, ?_⟩ <;> ext i hi
  · simp [hi, show i < 16 by omega, show i < 24 by omega, show i < 32 by omega]
  · simp [hi, show 8 + i < 32 by omega, show ¬ 8 + i < 8 by omega, show 8 + i < 16 by omega, show 8 + i < 24 by omega]
  · simp [hi, show 16 + i < 32 by omega, show ¬ 16 + i < 8 by omega, show ¬ 16 + i < 16 by omega,
      show 16 + i < 24 by omega, BitVec.getLsbD_of_ge a (16 + i) (by omega), BitVec.getLsbD_of_ge b (16 + i - 8) (by omega)]
  · simp [hi, show 24 + i < 32 by omega, show ¬ 24 + i < 8 by omega, show ¬ 24 + i < 16 by omega,
      show ¬ 24 + i < 24 by omega, BitVec.getLsbD_of_ge a (24 + i) (by omega),
      BitVec.getLsbD_of_ge b (24 + i - 8) (by omega), BitVec.getLsbD_of_ge c (24 + i - 16) (by omega)]

/-- Membership in `KNOWN` as a list. -/
theorem mem_known {c : U16} : c ∈ [0xFF03#16, 0xFF05#16, 0xFF08#16] ↔ known c = true := by
  rw [known_iff]
  simp only [List.mem_cons, List.not_mem_nil, or_false, variantOf, cmdSar, cmdStby, cmdHb]
  by_cases h₁ : c = 0xFF03#16
  · simp [h₁]
  · by_cases h₂ : c = 0xFF05#16
    · simp [h₂]
    · by_cases h₃ : c = 0xFF08#16 <;> simp [h₁, h₂, h₃]

end Sys2Proof.Machine
end

