-- ==== Sys2Proof/Laws/State.lean ====
section
/-! SUPPORT. One lemma per field for each update of the state, so that no proof unfolds a record update. -/

namespace Sys2Proof.Machine

variable (s : State)

@[simp] theorem State.returns_cfg (r : HostResult) : (s.returns r).cfg = s.cfg := rfl
@[simp] theorem State.returns_port (r : HostResult) : (s.returns r).port = s.port := rfl
@[simp] theorem State.returns_docs (r : HostResult) : (s.returns r).docs = s.docs := rfl
@[simp] theorem State.returns_ret (r : HostResult) : (s.returns r).ret = r := rfl
@[simp] theorem State.returns_parser (r : HostResult) : (s.returns r).parser = s.parser := rfl
@[simp] theorem State.returns_msg (r : HostResult) : (s.returns r).msg = s.msg := rfl
@[simp] theorem State.returns_out (r : HostResult) : (s.returns r).out = s.out := rfl
@[simp] theorem State.returns_lastStatus (r : HostResult) : (s.returns r).lastStatus = s.lastStatus := rfl
@[simp] theorem State.returns_fault (r : HostResult) : (s.returns r).fault = s.fault := rfl

@[simp] theorem State.raiseFault_cfg (code : Byte) : (s.raiseFault code).cfg = s.cfg := rfl
@[simp] theorem State.raiseFault_port (code : Byte) : (s.raiseFault code).port = s.port := rfl
@[simp] theorem State.raiseFault_docs (code : Byte) : (s.raiseFault code).docs = s.docs := rfl
@[simp] theorem State.raiseFault_ret (code : Byte) : (s.raiseFault code).ret = .faulted := rfl
@[simp] theorem State.raiseFault_parser (code : Byte) : (s.raiseFault code).parser = s.parser := rfl
@[simp] theorem State.raiseFault_msg (code : Byte) : (s.raiseFault code).msg = s.msg := rfl
@[simp] theorem State.raiseFault_out (code : Byte) : (s.raiseFault code).out = s.out := rfl
@[simp] theorem State.raiseFault_lastStatus (code : Byte) : (s.raiseFault code).lastStatus = s.lastStatus := rfl
@[simp] theorem State.raiseFault_fault (code : Byte) : (s.raiseFault code).fault = code := rfl

@[simp] theorem State.resetBlock_cfg : s.resetBlock.cfg = s.cfg := rfl
@[simp] theorem State.resetBlock_port : s.resetBlock.port = s.port := rfl
@[simp] theorem State.resetBlock_docs : s.resetBlock.docs = s.docs := rfl
@[simp] theorem State.resetBlock_ret : s.resetBlock.ret = .none := rfl
@[simp] theorem State.resetBlock_parser : s.resetBlock.parser = State.reset.parser := rfl
@[simp] theorem State.resetBlock_msg : s.resetBlock.msg = State.reset.msg := rfl
@[simp] theorem State.resetBlock_out : s.resetBlock.out = State.reset.out := rfl
@[simp] theorem State.resetBlock_lastStatus : s.resetBlock.lastStatus = 0x00#8 := rfl
@[simp] theorem State.resetBlock_fault : s.resetBlock.fault = 0x00#8 := rfl

@[simp] theorem State.clearMsg_cfg : s.clearMsg.cfg = s.cfg := rfl
@[simp] theorem State.clearMsg_port : s.clearMsg.port = s.port := rfl
@[simp] theorem State.clearMsg_docs : s.clearMsg.docs = s.docs := rfl
@[simp] theorem State.clearMsg_ret : s.clearMsg.ret = s.ret := rfl
@[simp] theorem State.clearMsg_parser : s.clearMsg.parser = s.parser := rfl
@[simp] theorem State.clearMsg_msg :
    s.clearMsg.msg = { s.msg with state := .empty, propsW := false, cmdW := false, tag := .none } := rfl
@[simp] theorem State.clearMsg_out : s.clearMsg.out = s.out := rfl
@[simp] theorem State.clearMsg_lastStatus : s.clearMsg.lastStatus = s.lastStatus := rfl
@[simp] theorem State.clearMsg_fault : s.clearMsg.fault = s.fault := rfl

@[simp] theorem State.setIdx_cfg (i : Nat) : (s.setIdx i).cfg = s.cfg := rfl
@[simp] theorem State.setIdx_port (i : Nat) : (s.setIdx i).port = s.port := rfl
@[simp] theorem State.setIdx_docs (i : Nat) : (s.setIdx i).docs = s.docs := rfl
@[simp] theorem State.setIdx_ret (i : Nat) : (s.setIdx i).ret = s.ret := rfl
@[simp] theorem State.setIdx_parser (i : Nat) : (s.setIdx i).parser = { s.parser with idx := i } := rfl
@[simp] theorem State.setIdx_msg (i : Nat) : (s.setIdx i).msg = s.msg := rfl
@[simp] theorem State.setIdx_out (i : Nat) : (s.setIdx i).out = s.out := rfl
@[simp] theorem State.setIdx_lastStatus (i : Nat) : (s.setIdx i).lastStatus = s.lastStatus := rfl
@[simp] theorem State.setIdx_fault (i : Nat) : (s.setIdx i).fault = s.fault := rfl

@[simp] theorem State.finish_cfg (st : Byte) : (s.finish st).cfg = s.cfg := rfl
@[simp] theorem State.finish_port (st : Byte) : (s.finish st).port = s.port := rfl
@[simp] theorem State.finish_docs (st : Byte) : (s.finish st).docs = s.docs := rfl
@[simp] theorem State.finish_ret (st : Byte) : (s.finish st).ret = .status st := rfl
@[simp] theorem State.finish_parser (st : Byte) : (s.finish st).parser = s.parser := rfl
@[simp] theorem State.finish_msg (st : Byte) : (s.finish st).msg = s.msg := rfl
@[simp] theorem State.finish_out (st : Byte) : (s.finish st).out = s.out := rfl
@[simp] theorem State.finish_lastStatus (st : Byte) : (s.finish st).lastStatus = st := rfl
@[simp] theorem State.finish_fault (st : Byte) : (s.finish st).fault = s.fault := rfl

@[simp] theorem State.resync_cfg (st : Byte) : (s.resync st).cfg = s.cfg := rfl
@[simp] theorem State.resync_port (st : Byte) : (s.resync st).port = s.port := rfl
@[simp] theorem State.resync_docs (st : Byte) : (s.resync st).docs = s.docs := rfl
@[simp] theorem State.resync_ret (st : Byte) : (s.resync st).ret = .status st := rfl
@[simp] theorem State.resync_parser (st : Byte) : (s.resync st).parser = { s.parser with idx := 0 } := rfl
@[simp] theorem State.resync_msg (st : Byte) : (s.resync st).msg = s.msg := rfl
@[simp] theorem State.resync_out (st : Byte) : (s.resync st).out = s.out := rfl
@[simp] theorem State.resync_lastStatus (st : Byte) : (s.resync st).lastStatus = st := rfl
@[simp] theorem State.resync_fault (st : Byte) : (s.resync st).fault = s.fault := rfl

@[simp] theorem State.building_cfg (m : MsgRegs) : (s.building m).cfg = s.cfg := rfl
@[simp] theorem State.building_port (m : MsgRegs) : (s.building m).port = s.port := rfl
@[simp] theorem State.building_docs (m : MsgRegs) : (s.building m).docs = s.docs := rfl
@[simp] theorem State.building_ret (m : MsgRegs) : (s.building m).ret = .none := rfl
@[simp] theorem State.building_parser (m : MsgRegs) : (s.building m).parser = s.parser := rfl
@[simp] theorem State.building_msg (m : MsgRegs) : (s.building m).msg = { m with state := .building } := rfl
@[simp] theorem State.building_out (m : MsgRegs) : (s.building m).out = s.out := rfl
@[simp] theorem State.building_lastStatus (m : MsgRegs) : (s.building m).lastStatus = s.lastStatus := rfl
@[simp] theorem State.building_fault (m : MsgRegs) : (s.building m).fault = s.fault := rfl

@[simp] theorem State.commit_cfg (t : Tag) (m : MsgRegs) : (s.commit t m).cfg = s.cfg := rfl
@[simp] theorem State.commit_port (t : Tag) (m : MsgRegs) : (s.commit t m).port = s.port := rfl
@[simp] theorem State.commit_docs (t : Tag) (m : MsgRegs) : (s.commit t m).docs = s.docs := rfl
@[simp] theorem State.commit_ret (t : Tag) (m : MsgRegs) : (s.commit t m).ret = .status stDone := rfl
@[simp] theorem State.commit_parser (t : Tag) (m : MsgRegs) : (s.commit t m).parser = s.parser := rfl
@[simp] theorem State.commit_msg (t : Tag) (m : MsgRegs) :
    (s.commit t m).msg =
      { m with
        props := s.parser.capProps, cmd := s.parser.capCmd, plen := s.parser.capLen, propsW := true, cmdW := true
        tag := t, state := .valid } := rfl
@[simp] theorem State.commit_out (t : Tag) (m : MsgRegs) : (s.commit t m).out = s.out := rfl
@[simp] theorem State.commit_lastStatus (t : Tag) (m : MsgRegs) : (s.commit t m).lastStatus = stDone := rfl
@[simp] theorem State.commit_fault (t : Tag) (m : MsgRegs) : (s.commit t m).fault = s.fault := rfl

@[simp] theorem State.contentError_cfg : s.contentError.cfg = s.cfg := rfl
@[simp] theorem State.contentError_port : s.contentError.port = s.port := rfl
@[simp] theorem State.contentError_docs : s.contentError.docs = s.docs := rfl
@[simp] theorem State.contentError_ret : s.contentError.ret = .status stContent := rfl
@[simp] theorem State.contentError_parser : s.contentError.parser = s.parser := rfl
@[simp] theorem State.contentError_msg : s.contentError.msg = { s.msg with state := .contentInvalid } := rfl
@[simp] theorem State.contentError_out : s.contentError.out = s.out := rfl
@[simp] theorem State.contentError_lastStatus : s.contentError.lastStatus = stContent := rfl
@[simp] theorem State.contentError_fault : s.contentError.fault = s.fault := rfl

@[simp] theorem State.takeFrame_cfg : s.takeFrame.cfg = s.cfg := rfl
@[simp] theorem State.takeFrame_port : s.takeFrame.port = s.port := rfl
@[simp] theorem State.takeFrame_docs : s.takeFrame.docs = s.docs := rfl
@[simp] theorem State.takeFrame_ret : s.takeFrame.ret = s.ret := rfl
@[simp] theorem State.takeFrame_parser : s.takeFrame.parser = { s.parser with idx := 0 } := rfl
@[simp] theorem State.takeFrame_msg :
    s.takeFrame.msg = { s.msg with state := .empty, propsW := false, cmdW := false, tag := .none } := rfl
@[simp] theorem State.takeFrame_out : s.takeFrame.out = s.out := rfl
@[simp] theorem State.takeFrame_lastStatus : s.takeFrame.lastStatus = s.lastStatus := rfl
@[simp] theorem State.takeFrame_fault : s.takeFrame.fault = s.fault := rfl

@[simp] theorem State.putOut_cfg (o : List Byte) : (s.putOut o).cfg = s.cfg := rfl
@[simp] theorem State.putOut_port (o : List Byte) : (s.putOut o).port = s.port := rfl
@[simp] theorem State.putOut_docs (o : List Byte) : (s.putOut o).docs = s.docs := rfl
@[simp] theorem State.putOut_ret (o : List Byte) : (s.putOut o).ret = .output o o.length := rfl
@[simp] theorem State.putOut_parser (o : List Byte) : (s.putOut o).parser = s.parser := rfl
@[simp] theorem State.putOut_msg (o : List Byte) : (s.putOut o).msg = s.msg := rfl
@[simp] theorem State.putOut_out (o : List Byte) :
    (s.putOut o).out = { ob := Memory.ofBytes 0 o, outLen := o.length, outValid := true } := rfl
@[simp] theorem State.putOut_lastStatus (o : List Byte) : (s.putOut o).lastStatus = s.lastStatus := rfl
@[simp] theorem State.putOut_fault (o : List Byte) : (s.putOut o).fault = s.fault := rfl

end Sys2Proof.Machine
end

