-- ==== Sys2Proof/Laws/Ops.lean ====
section
/-! SUPPORT. What each shared operation can do, said once. -/

namespace Sys2Proof.Machine

theorem State.unlessFaulted_live {s : State} (h : s.fault = 0x00#8) (r : HostResult) (t : State) :
    s.unlessFaulted r t = t := by
  simp [State.unlessFaulted, h]

theorem State.unlessFaulted_faulted {s : State} (h : s.fault ≠ 0x00#8) (r : HostResult) (t : State) :
    s.unlessFaulted r t = s.returns r := by
  simp [State.unlessFaulted, h]

/-- All that a guarded operation can do. -/
theorem State.unlessFaulted_cases (s : State) (r : HostResult) (t : State) :
    s.fault ≠ 0x00#8 ∧ s.unlessFaulted r t = s.returns r ∨ s.fault = 0x00#8 ∧ s.unlessFaulted r t = t := by
  by_cases h : s.fault = 0x00#8
  · exact .inr ⟨h, s.unlessFaulted_live h r t⟩
  · exact .inl ⟨h, s.unlessFaulted_faulted h r t⟩

/-- All that an accessor can do. -/
theorem State.access_cases (s : State) (available : Bool) (r : HostResult) :
    s.fault ≠ 0x00#8 ∧ s.access available r = s.returns .refused ∨
      s.fault = 0x00#8 ∧ available = true ∧ s.access available r = s.returns r ∨
      s.fault = 0x00#8 ∧ available = false ∧ s.access available r = s.raiseFault faultRead := by
  unfold State.access
  rcases s.unlessFaulted_cases .refused (if available then s.returns r else s.raiseFault faultRead) with h | h
  · exact .inl h
  · cases available
    · exact .inr (.inr ⟨h.1, rfl, h.2⟩)
    · exact .inr (.inl ⟨h.1, rfl, h.2⟩)

theorem State.access_available {s : State} (h : s.fault = 0x00#8) (r : HostResult) :
    s.access true r = s.returns r := by
  simp [State.access, s.unlessFaulted_live h]

theorem State.access_unavailable {s : State} (h : s.fault = 0x00#8) (r : HostResult) :
    s.access false r = s.raiseFault faultRead := by
  simp [State.access, s.unlessFaulted_live h]

/-- All that storing a byte can do. -/
theorem State.storeByte_ok {s t : State} {b : Byte} :
    s.storeByte b = .ok t ↔
      s.parser.idx < s.cfg.bufCap ∧
        t = { s with parser := { s.parser with sb := s.parser.sb.write s.parser.idx b, idx := s.parser.idx + 1 } } := by
  unfold State.storeByte
  split <;> simp_all [eq_comm]

@[simp] theorem outcomeOf_ok (s : State) : outcomeOf (.ok s) = .next s := rfl

theorem outcomeOf_next {r : Except Fault State} {t : State} : outcomeOf r = .next t ↔ r = .ok t := by
  cases r <;> simp [outcomeOf]

/-- All that `SERIALIZE` can do (R160, R161). -/
theorem execSerialize_next {s t : State} (h : execSerialize s = .next t) :
    s.fault ≠ 0x00#8 ∧ t = s.returns .refused ∨
      s.fault = 0x00#8 ∧ s.populated = false ∧ t = s.raiseFault faultSerialize ∨
      s.fault = 0x00#8 ∧ s.populated = true ∧ 12 + s.msg.plen.toNat ≤ s.cfg.bufCap ∧ t = s.putOut s.serialized := by
  unfold execSerialize at h
  split at h
  · next hf => injection h with h; exact .inl ⟨hf, h.symm⟩
  · next hf =>
    have hf : s.fault = 0x00#8 := by simpa using hf
    split at h
    · next hp => injection h with h; exact .inr (.inl ⟨hf, hp, h.symm⟩)
    · next hp =>
      split at h
      · cases h
      · next hl =>
        injection h with h
        exact .inr (.inr ⟨hf, by simpa using hp, by omega, h.symm⟩)

/-- A frame is the 12 header bytes and the payload. -/
@[simp] theorem frameBytes_length (p c len : U16) (pay : List Byte) : (frameBytes p c len pay).length = 12 + pay.length := by
  simp only [frameBytes, headerBytes, List.length_append, le16_length, List.length_cons, List.length_nil]

theorem State.serialized_length (s : State) : s.serialized.length = 12 + s.msg.plen.toNat := by
  simp [State.serialized]

/-- All that an illegal operation code can do (R234, R236). -/
theorem State.illegalOp_cases (s : State) :
    s.fault ≠ 0x00#8 ∧ s.illegalOp = s.returns .refused ∨
      s.fault = 0x00#8 ∧ s.illegalOp = s.raiseFault faultIllegalOp :=
  s.unlessFaulted_cases .refused (s.raiseFault faultIllegalOp)

/-- The payload of a complete frame is a function of the parser registers. -/
theorem State.payload_eq {s t : State} (h : s.parser = t.parser) : s.payload = t.payload := by
  rw [State.payload, State.payload, h]

/-- The state check of the payload setters. -/
theorem State.accepts_iff {s : State} {t : Tag} : s.accepts t = true ↔ s.msg.cmdW = true ∧ variantOf s.msg.cmd = t := by
  simp [State.accepts]

/-- R161's requirement. -/
theorem State.populated_iff {s : State} :
    s.populated = true ↔
      (s.msg.state = .valid ∨ s.msg.state = .building) ∧ s.msg.propsW = true ∧ s.msg.cmdW = true ∧ s.msg.tag ≠ .none := by
  simp [State.populated, and_assoc]

/-! The fields of a frame (R162 to R165). -/

theorem rd16_frameBytes_hck (p c len : U16) (pay : List Byte) :
    rd16 (frameBytes p c len pay) 2 = cksum16 (headerBytes p c len) :=
  rd16_after (a := [sig, sig]) rfl _ _

theorem rd16_frameBytes_pck (p c len : U16) (pay : List Byte) : rd16 (frameBytes p c len pay) 4 = cksum16 pay := by
  unfold frameBytes
  rw [show ∀ a b c d e : List Byte, a ++ b ++ c ++ d ++ e = (a ++ b) ++ (c ++ (d ++ e)) by simp]
  exact rd16_after rfl _ _

theorem rd16_frameBytes_props (p c len : U16) (pay : List Byte) : rd16 (frameBytes p c len pay) 6 = p := by
  unfold frameBytes headerBytes
  rw [show ∀ a b c d e f g : List Byte, a ++ b ++ c ++ (d ++ e ++ f) ++ g = (a ++ b ++ c) ++ (d ++ (e ++ f ++ g)) by simp]
  exact rd16_after rfl _ _

theorem rd16_frameBytes_cmd (p c len : U16) (pay : List Byte) : rd16 (frameBytes p c len pay) 8 = c := by
  unfold frameBytes headerBytes
  rw [show ∀ a b c d e f g : List Byte, a ++ b ++ c ++ (d ++ e ++ f) ++ g = (a ++ b ++ c ++ d) ++ (e ++ (f ++ g)) by simp]
  exact rd16_after rfl _ _

theorem rd16_frameBytes_len (p c len : U16) (pay : List Byte) : rd16 (frameBytes p c len pay) 10 = len := by
  unfold frameBytes headerBytes
  rw [show ∀ a b c d e f g : List Byte, a ++ b ++ c ++ (d ++ e ++ f) ++ g = (a ++ b ++ c ++ d ++ e) ++ (f ++ g) by simp]
  exact rd16_after rfl _ _

theorem frameBytes_header (p c len : U16) (pay : List Byte) :
    ((frameBytes p c len pay).drop 6).take 6 = headerBytes p c len := rfl

theorem frameBytes_payload (p c len : U16) (pay : List Byte) : (frameBytes p c len pay).drop 12 = pay := rfl

end Sys2Proof.Machine
end

