-- ==== Sys2Proof/Laws/Parser.lean ====
section
/-! SUPPORT. What one byte can do to the parser, said once, and the unfolding of the `FEED` loop. -/

namespace Sys2Proof.Machine

/-- The state after a byte is stored and its field captured, before its checks (R122, R124 to R129). -/
def State.accepted (s : State) (b : Byte) : State :=
  { s.clearMsg with
    parser :=
      ParserRegs.capture { s.parser with sb := s.parser.sb.write s.parser.idx b, idx := s.parser.idx + 1 } }

@[simp] theorem ParserRegs.capture_idx (p : ParserRegs) : p.capture.idx = p.idx := by
  unfold ParserRegs.capture; split <;> [rfl; (split <;> [rfl; (split <;> [rfl; (split <;> [rfl; (split <;> rfl)])])])]

@[simp] theorem ParserRegs.capture_sb (p : ParserRegs) : p.capture.sb = p.sb := by
  unfold ParserRegs.capture; split <;> [rfl; (split <;> [rfl; (split <;> [rfl; (split <;> [rfl; (split <;> rfl)])])])]

theorem ParserRegs.capture_capHck (p : ParserRegs) :
    p.capture.capHck = if p.idx = 4 then p.sb.rd16 2 else p.capHck := by
  unfold ParserRegs.capture; repeat' split
  all_goals rfl

theorem ParserRegs.capture_capPck (p : ParserRegs) :
    p.capture.capPck = if p.idx = 6 then p.sb.rd16 4 else p.capPck := by
  unfold ParserRegs.capture; repeat' split
  all_goals first | rfl | omega

theorem ParserRegs.capture_capProps (p : ParserRegs) :
    p.capture.capProps = if p.idx = 8 then p.sb.rd16 6 else p.capProps := by
  unfold ParserRegs.capture; repeat' split
  all_goals first | rfl | omega

theorem ParserRegs.capture_capCmd (p : ParserRegs) :
    p.capture.capCmd = if p.idx = 10 then p.sb.rd16 8 else p.capCmd := by
  unfold ParserRegs.capture; repeat' split
  all_goals first | rfl | omega

theorem ParserRegs.capture_capLen (p : ParserRegs) :
    p.capture.capLen = if p.idx = 12 then p.sb.rd16 10 else p.capLen := by
  unfold ParserRegs.capture; repeat' split
  all_goals first | rfl | omega

@[simp] theorem State.accepted_idx (s : State) (b : Byte) : (s.accepted b).parser.idx = s.parser.idx + 1 := by
  simp [State.accepted]

@[simp] theorem State.accepted_sb (s : State) (b : Byte) :
    (s.accepted b).parser.sb = s.parser.sb.write s.parser.idx b := by
  simp [State.accepted]

@[simp] theorem State.accepted_cfg (s : State) (b : Byte) : (s.accepted b).cfg = s.cfg := rfl
@[simp] theorem State.accepted_port (s : State) (b : Byte) : (s.accepted b).port = s.port := rfl
@[simp] theorem State.accepted_docs (s : State) (b : Byte) : (s.accepted b).docs = s.docs := rfl
@[simp] theorem State.accepted_ret (s : State) (b : Byte) : (s.accepted b).ret = s.ret := rfl
@[simp] theorem State.accepted_msg (s : State) (b : Byte) : (s.accepted b).msg = s.clearMsg.msg := rfl
@[simp] theorem State.accepted_out (s : State) (b : Byte) : (s.accepted b).out = s.out := rfl
@[simp] theorem State.accepted_lastStatus (s : State) (b : Byte) : (s.accepted b).lastStatus = s.lastStatus := rfl
@[simp] theorem State.accepted_fault (s : State) (b : Byte) : (s.accepted b).fault = s.fault := rfl

/-- All that one byte can do before its checks: the signature scan's three ends, or a byte accumulated. -/
theorem State.parseByte_cases {s t : State} {b : Byte} (h : s.parseByte b = .ok t) :
    (s.parser.idx < 2 ∧ b = sig ∧ s.parser.idx < s.cfg.bufCap ∧
        t = State.finish
          { s.clearMsg with
            parser := { s.parser with sb := s.parser.sb.write s.parser.idx b, idx := s.parser.idx + 1 } } 0x00#8) ∨
      (s.parser.idx < 2 ∧ b ≠ sig ∧ t = s.clearMsg.resync stSig) ∨
      (2 ≤ s.parser.idx ∧ s.parser.idx < s.cfg.bufCap ∧ t = (s.accepted b).checkByte) := by
  unfold State.parseByte at h
  split at h
  · next hi =>
    unfold State.scanSignature at h
    split at h
    · next hb =>
      split at h
      · next u hu =>
        injection h with h
        obtain ⟨hlt, rfl⟩ := State.storeByte_ok.mp hu
        exact .inl ⟨hi, hb, hlt, h.symm⟩
      · cases h
    · next hb => injection h with h; exact .inr (.inl ⟨hi, hb, h.symm⟩)
  · next hi =>
    unfold State.accumulate at h
    split at h
    · next u hu =>
      injection h with h
      obtain ⟨hlt, rfl⟩ := State.storeByte_ok.mp hu
      exact .inr (.inr ⟨by omega, hlt, h.symm⟩)
    · cases h

/-- A byte is refused an address only when `idx` is past the scratch buffer. -/
theorem State.parseByte_ok {s : State} (b : Byte) (h : s.parser.idx < s.cfg.bufCap) : ∃ t, s.parseByte b = .ok t := by
  have hs : ∀ u : State, u.parser.idx = s.parser.idx → u.cfg = s.cfg → ∃ t, u.storeByte b = .ok t := by
    intro u hu hc
    exact ⟨_, State.storeByte_ok.mpr ⟨by rw [hu, hc]; exact h, rfl⟩⟩
  unfold State.parseByte
  split
  · unfold State.scanSignature
    split
    · obtain ⟨t, ht⟩ := hs s.clearMsg rfl rfl
      exact ⟨_, by rw [ht]⟩
    · exact ⟨_, rfl⟩
  · unfold State.accumulate
    obtain ⟨t, ht⟩ := hs s.clearMsg rfl rfl
    exact ⟨_, by rw [ht]⟩

/-- The accumulation of a byte that has an address. -/
theorem State.parseByte_accepted {s : State} (b : Byte) (h2 : 2 ≤ s.parser.idx) (h : s.parser.idx < s.cfg.bufCap) :
    s.parseByte b = .ok (s.accepted b).checkByte := by
  obtain ⟨t, ht⟩ := State.parseByte_ok b h
  rcases State.parseByte_cases ht with hc | hc | hc
  · omega
  · omega
  · rw [ht, hc.2.2]

/-- The checks of a byte: rejected at offset 9, rejected at offset 11, complete, or accepted (R128 to R131). -/
theorem State.checkByte_cases (s : State) :
    (s.parser.idx = 10 ∧ known s.parser.capCmd = false ∧ s.checkByte = s.resync stCmd) ∨
      (s.parser.idx = 12 ∧ s.headerStatus ≠ 0x00#8 ∧ s.checkByte = s.resync s.headerStatus) ∨
      (12 ≤ s.parser.idx ∧ s.parser.idx = 12 + s.parser.capLen.toNat ∧ (s.parser.idx = 12 → s.headerStatus = 0x00#8) ∧
        s.checkByte = s.completeFrame) ∨
      (¬(12 ≤ s.parser.idx ∧ s.parser.idx = 12 + s.parser.capLen.toNat) ∧
        (s.parser.idx = 10 → known s.parser.capCmd = true) ∧ (s.parser.idx = 12 → s.headerStatus = 0x00#8) ∧
        s.checkByte = s.finish 0x00#8) := by
  unfold State.checkByte
  split
  · next h => exact .inl ⟨h.1, h.2, rfl⟩
  · next h1 =>
    split
    · next h => exact .inr (.inl ⟨h.1, h.2, rfl⟩)
    · next h2 =>
      have h3 : s.parser.idx = 12 → s.headerStatus = 0x00#8 := fun h => by
        by_contra hn; exact h2 ⟨h, hn⟩
      split
      · next h => exact .inr (.inr (.inl ⟨h.1, h.2, h3, rfl⟩))
      · next h =>
        refine .inr (.inr (.inr ⟨h, fun h10 => ?_, h3, rfl⟩))
        by_contra hn
        exact h1 ⟨h10, by simpa using hn⟩

/-- The ends of a complete frame (R132 to R135). -/
theorem State.completeFrame_cases (s : State) :
    (cksum16 s.payload ≠ s.parser.capPck ∧ s.completeFrame = s.resync stPck) ∨
      (cksum16 s.payload = s.parser.capPck ∧ variantOf s.parser.capCmd = .none ∧ s.completeFrame = s.resync stCmd) ∨
      (cksum16 s.payload = s.parser.capPck ∧ variantOf s.parser.capCmd = .sar ∧ Config.jsonParse s.payload = none ∧
        s.completeFrame = (s.setIdx 0).contentError) ∨
      (∃ d, cksum16 s.payload = s.parser.capPck ∧ variantOf s.parser.capCmd = .sar ∧
        Config.jsonParse s.payload = some d ∧
        s.completeFrame = (s.setIdx 0).commit .sar { s.msg with sarDoc := d }) ∨
      (cksum16 s.payload = s.parser.capPck ∧ variantOf s.parser.capCmd = .stby ∧
        s.completeFrame = (s.setIdx 0).commit .stby { s.msg with stby := byteAt s.payload 0 != 0x00#8 }) ∨
      (cksum16 s.payload = s.parser.capPck ∧ variantOf s.parser.capCmd = .hb ∧
        s.completeFrame = (s.setIdx 0).commit .hb { s.msg with hb := hbDecode s.payload }) := by
  unfold State.completeFrame
  split
  · next h => exact .inl ⟨h, rfl⟩
  · next h =>
    have h : cksum16 s.payload = s.parser.capPck := by simpa using h
    split
    · next hv =>
      unfold State.decodeSar
      split
      · next hj => exact .inr (.inr (.inl ⟨h, hv, hj, rfl⟩))
      · next d hj => exact .inr (.inr (.inr (.inl ⟨d, h, hv, hj, rfl⟩)))
    · next hv => exact .inr (.inr (.inr (.inr (.inl ⟨h, hv, rfl⟩))))
    · next hv => exact .inr (.inr (.inr (.inr (.inr ⟨h, hv, rfl⟩))))
    · next hv => exact .inr (.inl ⟨h, hv, rfl⟩)

theorem State.feedLoop_nil (s : State) (n : Nat) (diag : Byte) :
    s.feedLoop n diag [] = .ok (s.returns (.feed false n [] diag)) := rfl

/-- One turn of the `FEED` loop (R140). -/
theorem State.feedLoop_cons {s t : State} {b : Byte} (n : Nat) (diag : Byte) (bs : List Byte)
    (h : s.parseByte b = .ok t) :
    s.feedLoop n diag (b :: bs) =
      if t.lastStatus &&& stDone ≠ 0x00#8 then .ok (t.returns (.feed true (n + 1) bs (diag ||| t.lastStatus)))
      else t.feedLoop (n + 1) (diag ||| t.lastStatus) bs := by
  rw [State.feedLoop, h]

/-! What a byte leaves as it was. -/

/-- The fields no byte writes. -/
structure KeepsRest (s t : State) : Prop where
  cfg : t.cfg = s.cfg
  port : t.port = s.port
  docs : t.docs = s.docs
  out : t.out = s.out
  fault : t.fault = s.fault

theorem State.checkByte_keeps (s : State) : KeepsRest s s.checkByte := by
  rcases s.checkByte_cases with ⟨_, _, h⟩ | ⟨_, _, h⟩ | ⟨_, _, _, h⟩ | ⟨_, _, _, h⟩ <;> rw [h]
  · exact ⟨rfl, rfl, rfl, rfl, rfl⟩
  · exact ⟨rfl, rfl, rfl, rfl, rfl⟩
  · rcases s.completeFrame_cases with ⟨_, h⟩ | ⟨_, _, h⟩ | ⟨_, _, _, h⟩ | ⟨_, _, _, _, h⟩ | ⟨_, _, h⟩ | ⟨_, _, h⟩ <;>
      rw [h] <;> exact ⟨rfl, rfl, rfl, rfl, rfl⟩
  · exact ⟨rfl, rfl, rfl, rfl, rfl⟩

theorem State.parseByte_keeps {s t : State} {b : Byte} (h : s.parseByte b = .ok t) : KeepsRest s t := by
  rcases State.parseByte_cases h with ⟨_, _, _, rfl⟩ | ⟨_, _, rfl⟩ | ⟨_, _, rfl⟩
  · exact ⟨rfl, rfl, rfl, rfl, rfl⟩
  · exact ⟨rfl, rfl, rfl, rfl, rfl⟩
  · have hk := (s.accepted b).checkByte_keeps
    exact ⟨hk.1, hk.2, hk.3, hk.4, hk.5⟩

/-- A byte pushed while nothing is faulted. -/
theorem execPushByte_live {s : State} (h : s.fault = 0x00#8) (b : Byte) : execPushByte b s = outcomeOf (s.parseByte b) := by
  simp [execPushByte, h]

/-- The accepted state written out, each captured field by the index at which it is captured. -/
theorem State.accepted_eq (s : State) (b : Byte) :
    s.accepted b =
      { s.clearMsg with
        parser :=
          { s.parser with
            sb := s.parser.sb.write s.parser.idx b
            idx := s.parser.idx + 1
            capHck := if s.parser.idx = 3 then (s.parser.sb.write s.parser.idx b).rd16 2 else s.parser.capHck
            capPck := if s.parser.idx = 5 then (s.parser.sb.write s.parser.idx b).rd16 4 else s.parser.capPck
            capProps := if s.parser.idx = 7 then (s.parser.sb.write s.parser.idx b).rd16 6 else s.parser.capProps
            capCmd := if s.parser.idx = 9 then (s.parser.sb.write s.parser.idx b).rd16 8 else s.parser.capCmd
            capLen := if s.parser.idx = 11 then (s.parser.sb.write s.parser.idx b).rd16 10 else s.parser.capLen } } := by
  have eqRegs : ∀ p q : ParserRegs, p.idx = q.idx → p.sb = q.sb → p.capHck = q.capHck → p.capPck = q.capPck →
      p.capProps = q.capProps → p.capCmd = q.capCmd → p.capLen = q.capLen → p = q := by
    intro p q
    cases p; cases q
    rintro rfl rfl rfl rfl rfl rfl rfl
    rfl
  refine Eq.trans (b := { s.clearMsg with parser := (s.accepted b).parser }) rfl ?_
  refine congrArg (fun p => { s.clearMsg with parser := p }) (eqRegs _ _ ?_ ?_ ?_ ?_ ?_ ?_ ?_) <;>
    simp [State.accepted, ParserRegs.capture_capHck, ParserRegs.capture_capPck, ParserRegs.capture_capProps,
      ParserRegs.capture_capCmd, ParserRegs.capture_capLen]

end Sys2Proof.Machine
end

