-- ==== Sys2Proof/Laws/PerInstr.lean ====
section
/-! SUPPORT. The statements made instruction by instruction: an instruction's bytes begin with its row's code in the
opcode table. -/

namespace Sys2Proof.Laws

/-- The fixed bytes of an instruction's row in spec/opcode_table.json: the operation code of R85, or the command code of
R77 with its least significant byte first. -/
def tableCode : Instr → List Byte
  | .pushByte _ => [0x01#8]
  | .feed _ => [0x02#8]
  | .setProps _ => [0x10#8]
  | .setCmd _ => [0x11#8]
  | .setSar _ => [0x12#8]
  | .setStandby _ => [0x13#8]
  | .setHeartbeat _ _ _ _ _ => [0x14#8]
  | .serialize => [0x20#8]
  | .getOut => [0x21#8]
  | .getProps => [0x30#8]
  | .getPriority => [0x31#8]
  | .getAck => [0x32#8]
  | .getVersion => [0x33#8]
  | .getReserved => [0x34#8]
  | .getCmd => [0x35#8]
  | .getLen => [0x36#8]
  | .getSar => [0x37#8]
  | .getSarText => [0x38#8]
  | .getStandby => [0x39#8]
  | .getHeartbeat => [0x3A#8]
  | .getStatus => [0x3B#8]
  | .reset => [0xFF#8]
  | .setSarMode => [0x03#8, 0xFF#8]
  | .setStandbyState => [0x05#8, 0xFF#8]
  | .heartbeat => [0x08#8, 0xFF#8]

/-- The bytes of an instruction begin with its table code. -/
def EncodeHead.Statement (i : Instr) : Prop :=
  tableCode i <+: encode i

theorem EncodeHead.pushByte (b : Byte) : EncodeHead.Statement (.pushByte b) := ⟨[b], rfl⟩
theorem EncodeHead.feed (bs : Option (List Byte)) : EncodeHead.Statement (.feed bs) := by
  cases bs with
  | none => exact ⟨[0xFF#8, 0xFF#8], rfl⟩
  | some bs => exact ⟨Machine.le16 (BitVec.ofNat 16 bs.length) ++ bs, rfl⟩
theorem EncodeHead.setProps (v : U16) : EncodeHead.Statement (.setProps v) := ⟨Machine.le16 v, rfl⟩
theorem EncodeHead.setCmd (c : U16) : EncodeHead.Statement (.setCmd c) := ⟨Machine.le16 c, rfl⟩
theorem EncodeHead.setSar (d : Option JsonDoc) : EncodeHead.Statement (.setSar d) := by
  cases d <;> exact ⟨[_], rfl⟩
theorem EncodeHead.setStandby (f : Bool) : EncodeHead.Statement (.setStandby f) := ⟨[_], rfl⟩
theorem EncodeHead.setHeartbeat (e s : U32) (v : U16) (t m : Byte) : EncodeHead.Statement (.setHeartbeat e s v t m) :=
  ⟨Machine.le32 e ++ Machine.le32 s ++ Machine.le16 v ++ [t, m], rfl⟩
theorem EncodeHead.serialize : EncodeHead.Statement .serialize := List.prefix_refl _
theorem EncodeHead.getOut : EncodeHead.Statement .getOut := List.prefix_refl _
theorem EncodeHead.getProps : EncodeHead.Statement .getProps := List.prefix_refl _
theorem EncodeHead.getPriority : EncodeHead.Statement .getPriority := List.prefix_refl _
theorem EncodeHead.getAck : EncodeHead.Statement .getAck := List.prefix_refl _
theorem EncodeHead.getVersion : EncodeHead.Statement .getVersion := List.prefix_refl _
theorem EncodeHead.getReserved : EncodeHead.Statement .getReserved := List.prefix_refl _
theorem EncodeHead.getCmd : EncodeHead.Statement .getCmd := List.prefix_refl _
theorem EncodeHead.getLen : EncodeHead.Statement .getLen := List.prefix_refl _
theorem EncodeHead.getSar : EncodeHead.Statement .getSar := List.prefix_refl _
theorem EncodeHead.getSarText : EncodeHead.Statement .getSarText := List.prefix_refl _
theorem EncodeHead.getStandby : EncodeHead.Statement .getStandby := List.prefix_refl _
theorem EncodeHead.getHeartbeat : EncodeHead.Statement .getHeartbeat := List.prefix_refl _
theorem EncodeHead.getStatus : EncodeHead.Statement .getStatus := List.prefix_refl _
theorem EncodeHead.reset : EncodeHead.Statement .reset := List.prefix_refl _
theorem EncodeHead.setSarMode : EncodeHead.Statement .setSarMode := ⟨[], by decide⟩
theorem EncodeHead.setStandbyState : EncodeHead.Statement .setStandbyState := ⟨[], by decide⟩
theorem EncodeHead.heartbeat : EncodeHead.Statement .heartbeat := ⟨[], by decide⟩

end Sys2Proof.Laws
end

