-- ==== Sys2Proof/Machine/Assembler.lean ====
section
/-! DEFINITION. The assembler of R88: the host operation of a line, its operand range checked, and the encoding of a
program. -/

namespace Sys2Proof.Machine

/-- A number in the range of an unsigned type of `w` bits (R88: "range checked against the operand type"). -/
def asmUnsigned (w : Nat) (n : Int) : Option (BitVec w) :=
  if 0 ≤ n ∧ n < 2 ^ w then some (BitVec.ofInt w n) else none

/-- A number in the range of a signed type of `w + 1` bits, as its two's-complement pattern. -/
def asmSigned (w : Nat) (n : Int) : Option (BitVec (w + 1)) :=
  if -(2 ^ w) ≤ n ∧ n < 2 ^ w then some (BitVec.ofInt (w + 1) n) else none

/-- The operands of a `record`, range checked. -/
def asmRecord (e s v t m : Int) : Option Instr :=
  match asmUnsigned 32 e, asmUnsigned 32 s, asmSigned 15 v, asmSigned 7 t, asmUnsigned 8 m with
  | some e, some s, some v, some t, some m => some (.setHeartbeat e s v t m)
  | _, _, _, _, _ => none

/-- An operation without operands: the line has none either. -/
def asmPlain (i : Instr) (o : AsmOperand) : Option Instr :=
  if o = .omitted then some i else none

/-- The operation of an operand that is one number of `w` bits. -/
def asmNumber (w : Nat) (mk : BitVec w → Instr) (o : AsmOperand) : Option Instr :=
  match o with
  | .number n => (asmUnsigned w n).map mk
  | _ => none

/-- The `FEED` operand. A byte string of more than 65534 bytes has no host-port bytes (R86). -/
def asmFeed (o : AsmOperand) : Option Instr :=
  match o with
  | .bytes bs => if Instr.wf (.feed (some bs)) then some (.feed (some bs)) else none
  | .noneWord => some (.feed none)
  | _ => none

/-- The `SET_SAR` operand: a `json` word is the document `JsonParse` gives for its text. -/
def asmSetSar (o : AsmOperand) : Option Instr :=
  match o with
  | .json text => (Config.jsonParse text).map fun d => .setSar (some d)
  | .noneWord => some (.setSar none)
  | _ => none

/-- The `SET_STANDBY` operand. -/
def asmSetStandby (o : AsmOperand) : Option Instr :=
  match o with
  | .bool b => some (.setStandby b)
  | _ => none

/-- The `SET_HEARTBEAT` operand. -/
def asmSetHeartbeat (o : AsmOperand) : Option Instr :=
  match o with
  | .record e s v t m => asmRecord e s v t m
  | _ => none

/-- The host operation of a line of R88. -/
def assembleLine (l : AsmLine) : Option Instr :=
  match l.mnemonic with
  | .pushByte => asmNumber 8 .pushByte l.operand
  | .feed => asmFeed l.operand
  | .setProps => asmNumber 16 .setProps l.operand
  | .setCmd => asmNumber 16 .setCmd l.operand
  | .setSar => asmSetSar l.operand
  | .setStandby => asmSetStandby l.operand
  | .setHeartbeat => asmSetHeartbeat l.operand
  | .serialize => asmPlain .serialize l.operand
  | .getOut => asmPlain .getOut l.operand
  | .getProps => asmPlain .getProps l.operand
  | .getPriority => asmPlain .getPriority l.operand
  | .getAck => asmPlain .getAck l.operand
  | .getVersion => asmPlain .getVersion l.operand
  | .getReserved => asmPlain .getReserved l.operand
  | .getCmd => asmPlain .getCmd l.operand
  | .getLen => asmPlain .getLen l.operand
  | .getSar => asmPlain .getSar l.operand
  | .getSarText => asmPlain .getSarText l.operand
  | .getStandby => asmPlain .getStandby l.operand
  | .getHeartbeat => asmPlain .getHeartbeat l.operand
  | .getStatus => asmPlain .getStatus l.operand
  | .reset => asmPlain .reset l.operand

/-- R88: a program's encoding is the concatenation of its lines' host-port bytes. -/
def encodeProgram (is : List Instr) : List Byte :=
  is.flatMap encode

/-- The fields that a `frame` expression overrides (R89): `some v` replaces the field's two bytes. -/
structure FrameOverrides where
  sig : Option U16 := none
  hck : Option U16 := none
  pck : Option U16 := none
  props : Option U16 := none
  cmd : Option U16 := none
  len : Option U16 := none
deriving DecidableEq, Repr

/-- The two bytes of a field: those of the override, or those the frame has. -/
def overrideField (f : List Byte) (o : Nat) (v : Option U16) : List Byte :=
  match v with
  | some v => le16 v
  | none => (f.drop o).take 2

/-- A frame with fields overridden after the checksums are computed (R89). -/
def frameWith (p c : U16) (pay : List Byte) (v : FrameOverrides) : List Byte :=
  let f := frame p c pay
  overrideField f 0 v.sig ++ overrideField f 2 v.hck ++ overrideField f 4 v.pck ++ overrideField f 6 v.props ++
    overrideField f 8 v.cmd ++ overrideField f 10 v.len ++ f.drop 12

end Sys2Proof.Machine
end

