-- ==== Sys2Proof/Machine/AssemblerText.lean ====
section
/-! DEFINITION. The text of an assembler line (R88, R89), read character by character into the abstract line of
Syntax.lean. Readers take the characters that are left and give a value and the characters after it. What the grammar
leaves open is settled as log entry 16 says. -/

namespace Sys2Proof.Machine

/-- The spaces before the next token. -/
def skipSpaces (cs : List Char) : List Char :=
  cs.dropWhile (· == ' ')

/-- A fixed piece of text. -/
def readText (t : List Char) (cs : List Char) : Option (List Char) :=
  if t.isPrefixOf cs then some (cs.drop t.length) else none

/-- The digits of R88's numbers and bytes, each at the index that is its value. -/
def digitChars : List Char :=
  "0123456789ABCDEF".toList

/-- The value of a digit, of either case (log entry 16). -/
def hexValue (c : Char) : Option Nat :=
  digitChars.findIdx? (· == c.toUpper)

/-- The digits in base `base` (at most 16) at the head of the text, `n` being the value of those before them. -/
def readDigits (base n : Nat) (cs : List Char) : Nat × List Char :=
  match cs with
  | [] => (n, [])
  | c :: cs =>
    match hexValue c with
    | some v => if v < base then readDigits base (n * base + v) cs else (n, c :: cs)
    | none => (n, c :: cs)

/-- A digit string of at least one digit. -/
def readNat (base : Nat) (cs : List Char) : Option (Nat × List Char) :=
  match cs with
  | [] => none
  | c :: _ =>
    match hexValue c with
    | some v => if v < base then some (readDigits base 0 cs) else none
    | none => none

/-- `number`: `"0x" hex-digits | decimal`, a decimal with an optional sign. -/
def readNumber (cs : List Char) : Option (Int × List Char) :=
  match cs with
  | '0' :: 'x' :: cs => (readNat 16 cs).map fun r => (Int.ofNat r.1, r.2)
  | '-' :: cs => (readNat 10 cs).map fun r => (-Int.ofNat r.1, r.2)
  | cs => (readNat 10 cs).map fun r => (Int.ofNat r.1, r.2)

/-- The hexadecimal bytes up to the closing bracket. -/
def readHexBytes (cs : List Char) : Option (List Byte × List Char) :=
  match cs with
  | a :: b :: ']' :: cs =>
    match hexValue a, hexValue b with
    | some x, some y => some ([BitVec.ofNat 8 (16 * x + y)], cs)
    | _, _ => none
  | a :: b :: ' ' :: cs =>
    match hexValue a, hexValue b, readHexBytes cs with
    | some x, some y, some (bs, r) => some (BitVec.ofNat 8 (16 * x + y) :: bs, r)
    | _, _, _ => none
  | _ => none

/-- `"[" hex-byte { " " hex-byte } "]"`, or `[]` as the programs of 95_test_vectors.md write the empty string. -/
def readBytes (cs : List Char) : Option (List Byte × List Char) :=
  match cs with
  | '[' :: ']' :: cs => some ([], cs)
  | '[' :: cs => readHexBytes cs
  | _ => none

/-- A number that is a u16, after its text. -/
def readU16 (cs : List Char) : Option (U16 × List Char) :=
  match readNumber cs with
  | some (n, cs) => (asmUnsigned 16 n).map fun v => (v, cs)
  | none => none

/-- One override of R89, such as `hck=0x0000`. -/
def readOverride (v : FrameOverrides) (cs : List Char) : Option (FrameOverrides × List Char) :=
  match readText "sig=".toList cs, readText "hck=".toList cs, readText "pck=".toList cs, readText "props=".toList cs,
    readText "cmd=".toList cs, readText "len=".toList cs with
  | some cs, _, _, _, _, _ => (readU16 cs).map fun r => ({ v with sig := some r.1 }, r.2)
  | _, some cs, _, _, _, _ => (readU16 cs).map fun r => ({ v with hck := some r.1 }, r.2)
  | _, _, some cs, _, _, _ => (readU16 cs).map fun r => ({ v with pck := some r.1 }, r.2)
  | _, _, _, some cs, _, _ => (readU16 cs).map fun r => ({ v with props := some r.1 }, r.2)
  | _, _, _, _, some cs, _ => (readU16 cs).map fun r => ({ v with cmd := some r.1 }, r.2)
  | _, _, _, _, _, some cs => (readU16 cs).map fun r => ({ v with len := some r.1 }, r.2)
  | none, none, none, none, none, none => none

/-- The overrides of a `frame` expression up to its closing parenthesis, each after a `;` or a `,`; `n` bounds their
number. -/
def readOverrides (n : Nat) (v : FrameOverrides) (cs : List Char) : Option (FrameOverrides × List Char) :=
  match n, cs with
  | _, ')' :: cs => some (v, cs)
  | n + 1, c :: cs =>
    if c = ';' ∨ c = ',' then
      match readOverride v (skipSpaces cs) with
      | some (w, cs) => readOverrides n w (skipSpaces cs)
      | none => none
    else none
  | _, _ => none

/-- A `,` and the spaces after it. -/
def readComma (cs : List Char) : Option (List Char) :=
  (readText [','] cs).map skipSpaces

/-- `frame`: the byte string of R89, its payload read by `readPayload`. -/
def readFrame (readPayload : List Char → Option (List Byte × List Char)) (cs : List Char) :
    Option (List Byte × List Char) := do
  let cs ← readText "frame(".toList cs
  let (p, cs) ← readU16 cs
  let cs ← readComma cs
  let (c, cs) ← readU16 cs
  let cs ← readComma cs
  let (pay, cs) ← readPayload cs
  let (v, cs) ← readOverrides 6 {} (skipSpaces cs)
  some (frameWith p c pay v, cs)

/-- `bytes := "[" ... "]" | frame`, the payload of a `frame` being `bytes` again; `n` bounds the depth, which is less than the
length of the text. -/
def readByteString (n : Nat) (cs : List Char) : Option (List Byte × List Char) :=
  match n with
  | 0 => readBytes cs
  | n + 1 => if cs.head? = some 'f' then readFrame (readByteString n) cs else readBytes cs

/-- One `name=number` of a record. -/
def readField (name : List Char) (cs : List Char) : Option (Int × List Char) :=
  match readText name cs with
  | some cs => readNumber cs
  | none => none

/-- `record`, from its opening brace (U+007B) to its closing one (U+007D). -/
def readRecord (cs : List Char) : Option (AsmOperand × List Char) := do
  let cs ← readText [Char.ofNat 0x7B] cs
  let (e, cs) ← readField "e=".toList cs
  let cs ← readComma cs
  let (s, cs) ← readField "s=".toList cs
  let cs ← readComma cs
  let (v, cs) ← readField "v=".toList cs
  let cs ← readComma cs
  let (t, cs) ← readField "t=".toList cs
  let cs ← readComma cs
  let (m, cs) ← readField "m=".toList cs
  let cs ← readText [Char.ofNat 0x7D] cs
  some (.record e s v t m, cs)

/-- `json`: the UTF-8 bytes between the two backquotes. DESIGN CHOICE (log entry 16): R88 gives no escape, so the text
ends at the first backquote after its opening one, and a JSON text that holds a backquote cannot be written. -/
def readJson (cs : List Char) : Option (AsmOperand × List Char) :=
  match readText "json`".toList cs with
  | none => none
  | some cs =>
    match cs.dropWhile (· != '`') with
    | [] => none
    | _ :: rest =>
      some (.json ((cs.takeWhile (· != '`')).flatMap fun c => (String.utf8EncodeChar c).map fun b => b.toBitVec), rest)

/-- The operand of a line: `omitted` where the next characters begin none. -/
def readOperand (cs : List Char) : Option (AsmOperand × List Char) :=
  match cs with
  | [] => some (.omitted, [])
  | c :: rest =>
    if c = ';' then some (.omitted, cs)
    else if c = '-' ∧ rest.head? = some '>' then some (.omitted, cs)
    else if c = '[' ∨ c = 'f' ∧ rest.head? = some 'r' then
      (readByteString cs.length cs).map fun r => (.bytes r.1, r.2)
    else if c = 'j' then readJson cs
    else if c = Char.ofNat 0x7B then readRecord cs
    else if c = 't' then (readText "true".toList cs).map fun r => (.bool true, r)
    else if c = 'f' then (readText "false".toList cs).map fun r => (.bool false, r)
    else if c = 'n' then (readText "none".toList cs).map fun r => (.noneWord, r)
    else (readNumber cs).map fun r => (.number r.1, r.2)

/-- The mnemonics of R85 as text. -/
def mnemonicNames : List (String × Mnemonic) :=
  [("PUSH_BYTE", .pushByte), ("FEED", .feed), ("SET_PROPS", .setProps), ("SET_CMD", .setCmd), ("SET_SAR", .setSar),
    ("SET_STANDBY", .setStandby), ("SET_HEARTBEAT", .setHeartbeat), ("SERIALIZE", .serialize), ("GET_OUT", .getOut),
    ("GET_PROPS", .getProps), ("GET_PRIORITY", .getPriority), ("GET_ACK", .getAck), ("GET_VERSION", .getVersion),
    ("GET_RESERVED", .getReserved), ("GET_CMD", .getCmd), ("GET_LEN", .getLen), ("GET_SAR", .getSar),
    ("GET_SAR_TEXT", .getSarText), ("GET_STANDBY", .getStandby), ("GET_HEARTBEAT", .getHeartbeat),
    ("GET_STATUS", .getStatus), ("RESET", .reset)]

/-- A character of a mnemonic. -/
def isMnemonicChar (c : Char) : Bool :=
  decide ('A' ≤ c ∧ c ≤ 'Z') || c == '_'

/-- `line := mnemonic [operand] [ "->" result ] [ ";" comment ]`. The result and the comment encode to nothing and are not
read (log entry 16). A line has a mnemonic; the lines of a program that have none are `logicalLines`' matter. -/
def readLine (cs : List Char) : Option AsmLine :=
  let cs := skipSpaces cs
  match mnemonicNames.find? fun e => e.1.toList == cs.takeWhile isMnemonicChar with
  | none => none
  | some e =>
    match readOperand (skipSpaces (cs.dropWhile isMnemonicChar)) with
    | none => none
    | some (o, rest) =>
      match skipSpaces rest with
      | [] => some { mnemonic := e.2, operand := o }
      | ';' :: _ => some { mnemonic := e.2, operand := o }
      | '-' :: '>' :: _ => some { mnemonic := e.2, operand := o }
      | _ => none

/-- The host operation of a line of text. -/
def assembleText (cs : List Char) : Option Instr :=
  match readLine cs with
  | some l => assembleLine l
  | none => none

/-- The line `cur` with the lines that continue it: those that begin with a space. -/
def joinContinuations (cur : List Char) (lines : List (List Char)) : List (List Char) :=
  match lines with
  | [] => [cur]
  | l :: ls =>
    if l.head? = some ' ' then joinContinuations (cur ++ ' ' :: skipSpaces l) ls else cur :: joinContinuations l ls

/-- A line that is neither empty nor a comment alone. -/
def holdsOperation (cs : List Char) : Bool :=
  match skipSpaces cs with
  | [] => false
  | c :: _ => c != ';'

/-- The lines of R88 in the text of a program. DESIGN CHOICE (log entry 16): R88 has one operation a line, and the
programs P1, P2 and P6 of 95_test_vectors.md go on in lines that begin with a space and hold a comment, a result or the
rest of an operand. Such a line belongs to the one before it, one space between them; an empty line and a comment alone
are no line. -/
def logicalLines (lines : List (List Char)) : List (List Char) :=
  (joinContinuations [] lines).filter holdsOperation

/-- A program's host-port bytes: those of its lines, one after another (R88). -/
def assembleProgram (lines : List (List Char)) : Option (List Byte) :=
  ((logicalLines lines).mapM assembleText).map encodeProgram

end Sys2Proof.Machine
end

