-- ==== Sys2Proof/Tests/Slice0.lean ====
section
/-! SUPPORT. The model's own tests. Expected values are those of 95_test_vectors.md (its vector is named at each test) or
of the rule named. -/

namespace Sys2Proof.Tests

open Sys2Proof.Machine

/-! Well-formedness and decoding. -/

theorem wf_feed_replicate (n : Nat) : (Instr.feed (some (List.replicate n 0#8))).wf = decide (n ≤ 65534) := by
  simp [Instr.wf]

/-- R86: a present `FEED` operand of 65535 bytes has no encoding. -/
theorem test_wf_refuses_long_feed : (Instr.feed (some (List.replicate 65535 0#8))).wf = false :=
  (wf_feed_replicate 65535).trans (by decide)

theorem test_wf_admits_longest_feed : (Instr.feed (some (List.replicate 65534 0#8))).wf = true :=
  (wf_feed_replicate 65534).trans (by decide)

theorem test_decode_pushByte : decodeHostOp [0x01, 0x54] [] = .op (.pushByte 0x54) [] [] := by decide
theorem test_decode_feed : decodeHostOp [0x02, 0x02, 0x00, 0xAA, 0xBB, 0x20] [] =
    .op (.feed (some [0xAA, 0xBB])) [0x20] [] := by decide
theorem test_decode_feed_absent : decodeHostOp [0x02, 0xFF, 0xFF] [] = .op (.feed none) [] [] := by decide
theorem test_decode_setProps : decodeHostOp [0x10, 0x34, 0x12] [] = .op (.setProps 0x1234) [] [] := by decide
theorem test_decode_setCmd : decodeHostOp [0x11, 0x05, 0xFF] [] = .op (.setCmd 0xFF05) [] [] := by decide
theorem test_decode_setSar : decodeHostOp [0x12, 0x01] [⟨7⟩] = .op (.setSar (some ⟨7⟩)) [] [] := by decide
theorem test_decode_setSar_absent : decodeHostOp [0x12, 0x00] [⟨7⟩] = .op (.setSar none) [] [⟨7⟩] := by decide
theorem test_decode_setStandby : decodeHostOp [0x13, 0x06] [] = .op (.setStandby true) [] [] := by decide
/-- R204's example: 330 is 0x014A and -5 is 0xFB. -/
theorem test_decode_setHeartbeat :
    decodeHostOp [0x14, 0x40, 0x42, 0x0F, 0x00, 0xEF, 0xBE, 0xAD, 0xDE, 0x4A, 0x01, 0xFB, 0x00] [] =
      .op (.setHeartbeat 1000000 0xDEADBEEF (bits16 330) (bits8 (-5)) 0) [] [] := by decide
theorem test_decode_serialize : decodeHostOp [0x20] [] = .op .serialize [] [] := by decide
theorem test_decode_getOut : decodeHostOp [0x21] [] = .op .getOut [] [] := by decide
theorem test_decode_getProps : decodeHostOp [0x30] [] = .op .getProps [] [] := by decide
theorem test_decode_getPriority : decodeHostOp [0x31] [] = .op .getPriority [] [] := by decide
theorem test_decode_getAck : decodeHostOp [0x32] [] = .op .getAck [] [] := by decide
theorem test_decode_getVersion : decodeHostOp [0x33] [] = .op .getVersion [] [] := by decide
theorem test_decode_getReserved : decodeHostOp [0x34] [] = .op .getReserved [] [] := by decide
theorem test_decode_getCmd : decodeHostOp [0x35] [] = .op .getCmd [] [] := by decide
theorem test_decode_getLen : decodeHostOp [0x36] [] = .op .getLen [] [] := by decide
theorem test_decode_getSar : decodeHostOp [0x37] [] = .op .getSar [] [] := by decide
theorem test_decode_getSarText : decodeHostOp [0x38] [] = .op .getSarText [] [] := by decide
theorem test_decode_getStandby : decodeHostOp [0x39] [] = .op .getStandby [] [] := by decide
theorem test_decode_getHeartbeat : decodeHostOp [0x3A] [] = .op .getHeartbeat [] [] := by decide
theorem test_decode_getStatus : decodeHostOp [0x3B] [] = .op .getStatus [] [] := by decide
theorem test_decode_reset : decodeHostOp [0xFF] [] = .op .reset [] [] := by decide
/-- R77: 0x03 0xFF, 0x05 0xFF and 0x08 0xFF on the wire. -/
theorem test_decode_setSarMode : decodeCommand (rd16 [0x03, 0xFF] 0) = some .setSarMode := by decide
theorem test_decode_setStandbyState : decodeCommand (rd16 [0x05, 0xFF] 0) = some .setStandbyState := by decide
theorem test_decode_heartbeat : decodeCommand (rd16 [0x08, 0xFF] 0) = some .heartbeat := by decide
theorem test_decode_refuses_unknown_code : decodeHostOp [0x05, 0x20] [] = .illegal 0x05 [0x20] := by decide
theorem test_decode_refuses_unknown_command : decodeCommand 0xFF04 = none := by decide
theorem test_decode_waits_for_operands : decodeHostOp [0x10, 0x34] [] = .incomplete := by decide

theorem test_table_word_setHeartbeat : decodeTableWord 8 0x14 = some (.setHeartbeat 0 0 0 0 0) := by decide
theorem test_table_word_feed : decodeTableWord 8 0x02 = some (.feed (some [])) := by decide
theorem test_table_word_heartbeat : decodeTableWord 16 0xFF08 = some .heartbeat := by decide

/-! One step each. -/

/-- What a function says of the next state, where there is one. -/
def view {α : Type} (o : Host.Outcome State Fault Refusal) (f : State → α) : Option α :=
  match o with
  | .next s => some (f s)
  | .fault _ => none
  | .refused _ => none

/-- The reset state with an instruction's bytes at the port. -/
def issued (port : List Byte) : State :=
  { State.reset with port := port }

/-- The 13 bytes of V-EX-1. -/
def ex1 : List Byte := [0x54, 0x54, 0x4B, 0x01, 0x01, 0x00, 0x34, 0x12, 0x05, 0xFF, 0x01, 0x00, 0x01]

/-- The 27 bytes of V-EX-2. -/
def ex2 : List Byte :=
  [0x54, 0x54, 0x16, 0x01, 0x0F, 0x05, 0x00, 0x00, 0x08, 0xFF, 0x0F, 0x00, 0x40, 0x42, 0x0F, 0x00, 0xEF, 0xBE, 0xAD,
    0xDE, 0x4A, 0x01, 0xFB, 0x00, 0x00, 0x00, 0x00]

/-- The message registers of V-EX-1, built by setters. -/
def built1 : State :=
  { State.reset with
    msg :=
      { State.reset.msg with
        state := .building, propsW := true, cmdW := true, tag := .stby, props := 0x1234, cmd := 0xFF05, plen := 1
        stby := true } }

/-- The message registers of V-EX-2, built by setters. -/
def built2 : State :=
  { State.reset with
    msg :=
      { State.reset.msg with
        state := .building, propsW := true, cmdW := true, tag := .hb, props := 0, cmd := 0xFF08, plen := 15
        hb := { epoch := 1000000, serial := 0xDEADBEEF, volt := bits16 330, temp := bits8 (-5), mode := 0 } } }

/-- A faulted block. -/
def faultedState : State :=
  { State.reset with fault := faultIllegalOp }

/-- V-PAR-3's first byte. -/
theorem test_pushByte_signature :
    view (exec (.pushByte 0x54) State.reset) (fun s => (s.ret, s.parser.idx)) = some (.status 0x00, 1) := by decide

/-- V-FLT-2. -/
theorem test_pushByte_refused :
    view (exec (.pushByte 0x54) faultedState) (fun s => (s.ret, s.parser.idx, s.lastStatus)) =
      some (.status 0x80, 0, 0x00) := by decide

/-- V-PAR-1, V-PAR-13. -/
theorem test_feed_example_1 :
    view (exec (.feed (some ex1)) State.reset) (fun s => (s.ret, s.parser.idx, s.msg)) =
      some (.feed true 13 [] 0x01, 0,
        { State.reset.msg with
          state := .valid, propsW := true, cmdW := true, tag := .stby, props := 0x1234, cmd := 0xFF05, plen := 1
          stby := true }) := by decide +kernel

/-- P2: garbage, a corrupted frame, then V-EX-2. -/
theorem test_feed_resynchronizes :
    view (exec (.feed (some ([0x00, 0x54, 0x00] ++ ex1.set 12 0x81 ++ ex2))) State.reset)
        (fun s => (s.ret, s.msg.tag, s.msg.hb, s.lastStatus)) =
      some (.feed true 43 [] 0x23, .hb,
        { epoch := 1000000, serial := 0xDEADBEEF, volt := bits16 330, temp := bits8 (-5), mode := 0 }, 0x01) := by
  decide +kernel

/-- V-ACC-6. -/
theorem test_setProps :
    view (exec (.setProps 0x1234) State.reset) (fun s => (s.msg.props, s.msg.propsW, s.msg.state)) =
      some (0x1234, true, .building) := by decide

/-- V-ACC-4: a command of another variant drops the payload. -/
theorem test_setCmd_drops_payload :
    view (exec (.setCmd 0xFF03) built1) (fun s => (s.msg.cmd, s.msg.tag)) = some (0xFF03, .none) := by decide

/-- V-ACC-3. -/
theorem test_setCmd_unknown :
    view (exec (.setCmd 0x0001) State.reset) (fun s => (s.fault, s.ret, s.msg)) =
      some (2, .faulted, State.reset.msg) := by decide

/-- V-ACC-8: the operand check comes first. -/
theorem test_setSar_absent : view (exec (.setSar none) State.reset) (fun s => s.fault) = some 6 := by decide

/-- R202's corner case: a text longer than 256 bytes gives `PLEN = 256`. -/
theorem test_setSar_caps_length (d : JsonDoc) (h : (Config.jsonRender d).length = 308) :
    view (exec (.setSar (some d)) { State.reset with msg := { State.reset.msg with cmdW := true, cmd := 0xFF03 } })
      (fun s => (s.msg.plen, s.msg.tag, s.msg.sarDoc)) = some (256, .sar, d) := by
  simp [exec, execSetSar, State.unlessFaulted, State.reset, State.accepts, State.building, view, h, variantOf, cmdSar,
    Config.hardware]

/-- V-ACC-2. -/
theorem test_setStandby_without_command :
    view (exec (.setStandby true) State.reset) (fun s => s.fault) = some 3 := by decide

/-- P1's third line. -/
theorem test_setStandby :
    view (exec (.setStandby true) { built1 with msg := { built1.msg with tag := .none, plen := 9, stby := false } })
      (fun s => s.msg) = some built1.msg := by decide

/-- P6's third line. -/
theorem test_setHeartbeat :
    view (exec (.setHeartbeat 1000000 0xDEADBEEF (bits16 330) (bits8 (-5)) 0)
        { built2 with msg := { built2.msg with tag := .none, plen := 9, hb := State.reset.msg.hb } })
      (fun s => s.msg) = some built2.msg := by decide

/-- V-EX-1. -/
theorem test_serialize_standby :
    view (exec .serialize built1) (fun s => (s.ret, s.out.outLen, s.out.outValid)) =
      some (.output ex1 13, 13, true) := by decide +kernel

/-- V-EX-2L: the same message under `LEGACY_DUP`. -/
theorem test_serialize_legacy_heartbeat :
    view (exec .serialize { built2 with cfg := { Config.hardware with hbEncMode := .legacyDup } }) (fun s => s.ret) =
      some (.output
        [0x54, 0x54, 0x16, 0x01, 0xA0, 0x05, 0x00, 0x00, 0x08, 0xFF, 0x0F, 0x00, 0x40, 0x42, 0x0F, 0x00, 0x40, 0x42,
          0x0F, 0x00, 0xEF, 0xBE, 0xAD, 0xDE, 0x4A, 0x01, 0xFB] 27) := by decide +kernel

/-- V-SER-6. -/
theorem test_getOut_before_serialize : view (exec .getOut State.reset) (fun s => s.fault) = some 4 := by decide

/-- V-SER-4: the bytes that read 0 come back too. -/
theorem test_getOut :
    view (exec .getOut { State.reset with out := { ob := Memory.ofBytes 0 ex1, outLen := 13, outValid := true } })
      (fun s => s.ret) = some (.output ex1 13) := by decide +kernel

/-- V-PR-8. -/
theorem test_getPriority :
    view (exec .getPriority { built1 with msg := { built1.msg with props := 0xABCD } }) (·.ret) =
      some (.priority 13) := by decide
theorem test_getAck : view (exec .getAck built1) (·.ret) = some (.ack 3) := by decide
theorem test_getVersion : view (exec .getVersion built1) (·.ret) = some (.version 0x48) := by decide
/-- V-PR-6. -/
theorem test_getReserved :
    view (exec .getReserved { built1 with msg := { built1.msg with props := 0xC000 } }) (·.ret) =
      some (.reserved 3) := by decide
theorem test_getProps : view (exec .getProps built1) (·.ret) = some (.word 0x1234) := by decide
/-- V-ACC-1. -/
theorem test_getProps_unavailable :
    view (exec .getProps State.reset) (fun s => (s.fault, s.ret)) = some (4, .faulted) := by decide
theorem test_getCmd : view (exec .getCmd built1) (·.ret) = some (.word 0xFF05) := by decide
theorem test_getLen : view (exec .getLen built2) (·.ret) = some (.word 15) := by decide
theorem test_getSar_inactive : view (exec .getSar built1) (·.fault) = some 4 := by decide
theorem test_getSar (d : JsonDoc) :
    view (exec .getSar { built1 with msg := { built1.msg with tag := .sar, sarDoc := d } }) (·.ret) =
      some (.document d) := by rfl
theorem test_getSarText (d : JsonDoc) :
    view (exec .getSarText { built1 with msg := { built1.msg with tag := .sar, sarDoc := d } }) (·.ret) =
      some (.text (Config.jsonRender d)) := by rfl
theorem test_getStandby : view (exec .getStandby built1) (·.ret) = some (.flag true) := by decide
/-- V-EX-2: 330 and -5 come back signed. -/
theorem test_getHeartbeat :
    view (exec .getHeartbeat built2) (·.ret) = some (.heartbeat 1000000 0xDEADBEEF 330 (-5) 0) := by decide
/-- V-ACC-9. -/
theorem test_getHeartbeat_inactive : view (exec .getHeartbeat built1) (·.fault) = some 4 := by decide
/-- P4. -/
theorem test_getStatus_while_faulted :
    view (exec .getStatus faultedState) (·.ret) = some (.blockStatus 0x00 .empty 1) := by decide
/-- V-FLT-5. -/
theorem test_reset_leaves_fault : view (exec .reset { built1 with fault := 3 }) id = some State.reset := by decide
/-- V-RST-2. -/
theorem test_reset_at_reset : view (exec .reset State.reset) id = some State.reset := by decide

/-- V-FLT-1. -/
theorem test_step_illegal_op :
    view (step (issued [0x05, 0x20])) (fun s => (s.fault, s.ret, s.port)) = some (1, .faulted, [0x20]) := by decide

/-- The first line of P1, from the port. -/
theorem test_step_setProps :
    view (step (issued [0x10, 0x34, 0x12, 0x11])) (fun s => (s.msg.props, s.port)) = some (0x1234, [0x11]) := by decide

/-- R8: a configuration with `HB_LEN` below 12 is refused. -/
theorem test_step_refuses_bad_configuration :
    step { State.reset with cfg := { Config.hardware with hbLen := 11 } } = .refused .badConfiguration := by rfl

/-- R185: a complete STBY frame whose payload byte is 0 decodes to false. -/
theorem test_step_setStandbyState :
    view (step (State.reset.withFetchWord 16 0xFF05)) (fun s => (s.ret, s.msg.tag, s.msg.stby, s.msg.cmd, s.msg.plen)) =
      some (.status 0x01, .stby, false, 0xFF05, 1) := by decide +kernel

/-- R188 at the payload of V-HB-1 (pad bytes AA BB CC): -5 and 330 as patterns, the pad ignored. -/
theorem test_hbDecode_ignores_pad :
    hbDecode (ex2.drop 12 |>.take 12 |> (· ++ [0xAA, 0xBB, 0xCC])) = built2.msg.hb := by decide

theorem test_step_heartbeat :
    view (step (State.reset.withFetchWord 16 0xFF08)) (fun s => (s.ret, s.msg.tag, s.msg.plen, s.parser.idx)) =
      some (.status 0x01, .hb, 15, 0) := by decide +kernel

/-- V-EX-4 under a capability that rejects the empty text: `E_CONTENT`. -/
theorem test_step_setSarMode (h : Config.jsonParse [] = none) :
    view (step (State.reset.withFetchWord 16 0xFF03)) (fun s => (s.ret, s.msg.state)) =
      some (.status 0x40, .contentInvalid) := by
  have : step (State.reset.withFetchWord 16 0xFF03) =
      .next ((State.reset.withFetchWord 16 0xFF03).takeFrame.decodeSar []) := by rfl
  rw [this, State.decodeSar, h]; rfl

/-! The checksum, the header status, the assembler. -/

/-- V-CK-2. -/
theorem test_cksum16_example : cksum16 [0x34, 0x12, 0x05, 0xFF, 0x01, 0x00] = 0x014B := by decide
/-- V-CK-4: the sum wraps. -/
theorem test_cksum16_wraps : cksum16 (List.replicate 258 0xFF) = 0x00FE := by decide +kernel
/-- V-PAR-6: both header tests fail on one byte. -/
theorem test_headerStatus_both :
    headerStatus Config.hardware 0xFF05 2 0 [0x00, 0x00, 0x05, 0xFF, 0x02, 0x00] = 0x18 := by decide
/-- V-PAR-10 and V-PAR-11: 1013 is too long a JSON text, 1012 is not. -/
theorem test_lenBad_sar :
    (lenBad Config.hardware cmdSar 1013, lenBad Config.hardware cmdSar 1012) = (true, false) := by decide
/-- V-PAR-4: `frame(0, 0xFF05, [01]; hck=0x0000)`. -/
theorem test_frameWith :
    frameWith 0 0xFF05 [0x01] { hck := some 0 } =
      [0x54, 0x54, 0x00, 0x00, 0x01, 0x00, 0x00, 0x00, 0x05, 0xFF, 0x01, 0x00, 0x01] := by decide
/-- P4's encoding, line by line. -/
theorem test_assemble_P4 :
    ([⟨.getStandby, .omitted⟩, ⟨.pushByte, .number 0x54⟩, ⟨.getStatus, .omitted⟩, ⟨.reset, .omitted⟩].mapM
      assembleLine).map encodeProgram = some [0x39, 0x01, 0x54, 0x3B, 0xFF] := by decide
/-- The third line of P6, with its comment: the bytes of R204's example. -/
theorem test_assemble_text_record :
    (assembleText "SET_HEARTBEAT \x7be=1000000,s=0xDEADBEEF,v=330,t=-5,m=0\x7d ; a comment".toList).map encode =
      some [0x14, 0x40, 0x42, 0x0F, 0x00, 0xEF, 0xBE, 0xAD, 0xDE, 0x4A, 0x01, 0xFB, 0x00] := by decide +kernel
/-- V-PAR-4's operand, and a result. -/
theorem test_assemble_text_frame :
    (assembleText "FEED frame(0, 0xFF05, [01]; hck=0x0000) -> (false, 13, [], 0x10)".toList).map encode =
      some [0x02, 0x0D, 0x00, 0x54, 0x54, 0x00, 0x00, 0x01, 0x00, 0x00, 0x00, 0x05, 0xFF, 0x01, 0x00, 0x01] := by
  decide +kernel
/-- R88's `bytes` inside a `frame` may be a `frame`: V-EX-1 as the payload of a frame of its own. -/
theorem test_assemble_text_nested_frame :
    assembleText "FEED frame(1, 0xFF03, frame(0x1234, 0xFF05, [01]); pck=0)".toList =
      some (.feed (some (frameWith 1 0xFF03 ex1 { pck := some 0 }))) := by decide +kernel
/-- P1 as it is written, with its line that is a comment alone, and the encoding it states. -/
theorem test_assemble_P1 :
    assembleProgram
      (["SET_PROPS 0x1234                          ; 10 34 12",
        "SET_CMD 0xFF05                            ; 11 05 FF",
        "SET_STANDBY true                          ; 13 01",
        "SERIALIZE -> ([54 54 4B 01 01 00 34 12 05 FF 01 00 01], 13)      ; 20",
        "FEED [54 54 4B 01 01 00 34 12 05 FF 01 00 01] -> (true, 13, [], 0x01)",
        "                                          ; 02 0D 00 54 54 4B 01 01 00 34 12 05 FF 01 00 01",
        "GET_PROPS -> 0x1234                       ; 30",
        "GET_STANDBY -> true                       ; 39",
        "GET_LEN -> 1                              ; 36"].map (·.toList)) =
      some ([0x10, 0x34, 0x12, 0x11, 0x05, 0xFF, 0x13, 0x01, 0x20, 0x02, 0x0D, 0x00] ++ ex1 ++ [0x30, 0x39, 0x36]) := by
  decide +kernel
/-- The first operation of P2, an operand and a result on lines of their own. -/
theorem test_assemble_P2 :
    assembleProgram
      (["FEED [00 54 00 54 54 4B 01 01 00 34 12 05 FF 01 00 81",
        "      54 54 16 01 0F 05 00 00 08 FF 0F 00 40 42 0F 00 EF BE AD DE 4A 01 FB 00 00 00 00]",
        "     -> (true, 43, [], 0x23)"].map (·.toList)) =
      some ([0x02, 0x2B, 0x00, 0x00, 0x54, 0x00] ++ ex1.set 12 0x81 ++ ex2) := by decide +kernel
/-- R88: a number outside the operand's type is no operand. -/
theorem test_assemble_range : assembleLine ⟨.pushByte, .number 256⟩ = none := by decide

end Sys2Proof.Tests
end

