-- ==== Sys2Proof/Tests/Witnesses.lean ====
section
/-! SUPPORT. For every statement that has hypotheses, a concrete state and operands that meet them all together, the
clauses of a statement at boundary values of their ranges. -/

namespace Sys2Proof.Tests

open Sys2Proof.Machine

theorem view_some {α : Type} {o : Host.Outcome State Fault Refusal} {f : State → α} {x : α} (h : view o f = some x) :
    ∃ t, o = .next t ∧ f t = x := by
  cases o with
  | next s => exact ⟨s, rfl, by simpa [view] using h⟩
  | fault _ => cases h
  | refused _ => cases h

/-! States. -/

/-- The parser registers with `n` bytes of a frame in `SB` and its fields captured. -/
def parserAt (n : Nat) (f : List Byte) : ParserRegs :=
  { idx := n, sb := Memory.ofBytes 0 (f.take n), capHck := rd16 f 2, capPck := rd16 f 4, capProps := rd16 f 6
    capCmd := rd16 f 8, capLen := rd16 f 10 }

/-- The reset state in the middle of a frame. -/
def midFrame (n : Nat) (f : List Byte) : State :=
  { State.reset with parser := parserAt n f }

/-- V-EX-4: a zero-length JSON frame. -/
def ex4 : List Byte := [0x54, 0x54, 0x02, 0x01, 0, 0, 0, 0, 0x03, 0xFF, 0, 0]

/-- A JSON frame whose payload is the two bytes of an empty array. -/
def exSar : List Byte := frame 0 cmdSar [0x5B, 0x5D]

theorem idle_inv {p : ParserRegs} {m : MsgRegs} (hp : p.idx = 0) (hs : p.sb = []) (hm : MsgInv Config.hardware m) :
    BlockInv { State.reset with parser := p, msg := m } := by
  refine ⟨rfl, rfl, ?_, hm, ?_, by simp [State.reset, latchedStatuses], by simp [State.reset, faultCodes]⟩
  · constructor <;> simp only [State.reset, hp, hs] <;> first | decide | simp
  · constructor
    all_goals simp [State.reset]
    decide

theorem inv_built1 : BlockInv built1 :=
  idle_inv rfl rfl (by constructor <;> decide)

theorem inv_built2 : BlockInv built2 :=
  idle_inv rfl rfl (by constructor <;> decide)

/-- The message of V-EX-1 after it was parsed. -/
def parsed1 : State :=
  { built1 with msg := { built1.msg with state := .valid } }

theorem inv_parsed1 : BlockInv parsed1 :=
  idle_inv rfl rfl (by constructor <;> decide)

/-- A state with an empty message whose registers are those of `built1`. -/
def emptied1 : State :=
  { built1 with msg := { built1.msg with state := .empty, propsW := false, cmdW := false, tag := .none } }

theorem inv_emptied1 : BlockInv emptied1 :=
  idle_inv rfl rfl (by constructor <;> decide)

/-- A content error's message (V-EX-4's outcome). -/
def contentInvalid1 : State :=
  { emptied1 with msg := { emptied1.msg with state := .contentInvalid } }

theorem inv_contentInvalid1 : BlockInv contentInvalid1 :=
  idle_inv rfl rfl (by constructor <;> decide)

/-- The message of V-EX-2 after it was parsed. -/
def parsed2 : State :=
  { built2 with msg := { built2.msg with state := .valid } }

theorem inv_parsed2 : BlockInv parsed2 :=
  idle_inv rfl rfl (by constructor <;> decide)

/-- A parsed JSON message of the longest payload the parser accepts. -/
def parsedSar : State :=
  { parsed1 with msg := { parsed1.msg with cmd := cmdSar, tag := .sar, plen := 1012 } }

theorem inv_parsedSar : BlockInv parsedSar :=
  idle_inv rfl rfl (by constructor <;> decide)

/-! Encodings and one step. -/

theorem witness_DecodeEncodeHostOperation :
    (Instr.feed (some (List.replicate 65534 0#8))).wf = true ∧
      (Instr.feed (some (List.replicate 65534 0#8))).isHostOp = true :=
  ⟨test_wf_admits_longest_feed, rfl⟩

theorem witness_DecodeEncodeFrameCommand : Instr.heartbeat.isHostOp = false := rfl

theorem witness_DecodedOperationStandsOnPort :
    decodeHostOp [0x13, 0x06, 0x20] [] = .op (.setStandby true) [0x20] [] ∧
      decodeHostOp [0x12, 0x01] [⟨7⟩] = .op (.setSar (some ⟨7⟩)) [] [] ∧
      decodeHostOp [0x02, 0x00, 0x00] [] = .op (.feed (some [])) [] [] := by decide

theorem witness_StepRunsIssuedOperation :
    (issued [0x20, 0x21]).cfg.wf = true ∧ (issued [0x20, 0x21]).pendingCommand = none ∧
      decodeHostOp (issued [0x20, 0x21]).port (issued [0x20, 0x21]).docs = .op .serialize [0x21] [] := by decide

theorem witness_StepRunsCommandOfCompleteFrame :
    (midFrame 13 ex1).cfg.wf = true ∧ (midFrame 13 ex1).frameReady 0xFF05 = true ∧
      decodeCommand 0xFF05 = some .setStandbyState := by decide +kernel

theorem witness_UnlistedCodeTakesIllegalOp :
    (issued [0x00]).cfg.wf = true ∧ (issued [0x00]).pendingCommand = none ∧ (issued [0x00]).port = [0x00] ∧
      0x00#8 ∉ hostOpCodes ∧ 0xFE#8 ∉ hostOpCodes ∧ (issued [0x00]).fault = 0 ∧ faultedState.fault ≠ 0 := by decide

/-- R8's two clauses at their boundaries: the smallest buffer, and one byte less. -/
theorem witness_OnlyBadConfigurationRefused :
    let c : Config := { bufCap := 24, sarMaxLen := 0, hbLen := 12, hbEncMode := .symmetric, sarParseLimit := 12 }
    (12 ≤ c.hbLen ∧ c.hbLen ≤ c.bufCap - 12 ∧ c.sarParseLimit ≤ c.bufCap - 12 ∧ 1 ≤ c.bufCap - 12) ∧
      ¬(12 ≤ c.hbLen ∧ c.hbLen ≤ 23 - 12 ∧ c.sarParseLimit ≤ 23 - 12 ∧ 1 ≤ 23 - 12) := by decide

theorem witness_NothingIssuedWaits :
    (issued [0x10, 0x34]).cfg.wf = true ∧ (issued [0x10, 0x34]).pendingCommand = none ∧
      decodeHostOp (issued [0x10, 0x34]).port (issued [0x10, 0x34]).docs = .incomplete := by decide

theorem witness_NoInstructionWritesConfigurationOrPort :
    ∃ t, exec .getStatus (issued [0x20]) = .next t ∧ t.port = [0x20] :=
  view_some (f := (·.port)) (by decide)

/-! Faults. -/

theorem witness_FaultedBlockRefuses :
    faultedState.fault ≠ 0 ∧ Instr.setProps 0 ≠ .getStatus ∧ (Instr.setProps 0).isHostOp = true := by decide

theorem witness_FaultingOperationWritesOnlyFault :
    ∃ t, exec .getProps State.reset = .next t ∧ t.ret = .faulted :=
  view_some (f := (·.ret)) (by decide)

theorem witness_OnlyResetLeavesFaultState :
    faultedState.fault ≠ 0 ∧ ∃ t, exec .getStatus faultedState = .next t ∧ t.fault = 1 :=
  ⟨by decide, view_some (f := (·.fault)) (by decide)⟩

/-! Setters and accessors. -/

theorem witness_SetPropsStoresRawValue : State.reset.fault = 0 ∧ faultedState.fault ≠ 0 := by decide

theorem witness_SetCmdStoresKnownCode :
    State.reset.fault = 0 ∧ 0xFF08#16 ∈ [0xFF03#16, 0xFF05#16, 0xFF08#16] ∧
      0xFF04#16 ∉ [0xFF03#16, 0xFF05#16, 0xFF08#16] ∧ faultedState.fault ≠ 0 := by decide

/-- `built1` with the command of JSON messages set. -/
def builtSar : State :=
  { built1 with msg := { built1.msg with cmd := 0xFF03, tag := .none } }

theorem witness_SetSarStoresDocument (d : JsonDoc) :
    (∃ len : U16, len.toNat = min (Config.jsonRender d).length builtSar.cfg.sarMaxLen) ∧ builtSar.fault = 0 ∧
      builtSar.msg.cmdW = true ∧ builtSar.msg.cmd = 0xFF03 ∧
      ¬(built1.msg.cmdW = true ∧ built1.msg.cmd = 0xFF03) ∧ faultedState.fault ≠ 0 := by
  refine ⟨⟨BitVec.ofNat 16 (min (Config.jsonRender d).length 256), ?_⟩, by decide, by decide, by decide, by decide,
    by decide⟩
  simp only [BitVec.toNat_ofNat]
  exact Nat.mod_eq_of_lt (by omega)

theorem witness_SetStandbyStoresFlag :
    built1.fault = 0 ∧ built1.msg.cmdW = true ∧ built1.msg.cmd = 0xFF05 ∧
      ¬(built2.msg.cmdW = true ∧ built2.msg.cmd = 0xFF05) ∧ ¬(State.reset.msg.cmdW = true) ∧ faultedState.fault ≠ 0 := by
  decide

theorem witness_SetHeartbeatStoresRecord :
    (15#16).toNat = built2.cfg.hbLen ∧ built2.fault = 0 ∧ built2.msg.cmdW = true ∧ built2.msg.cmd = 0xFF08 ∧
      ¬(built1.msg.cmdW = true ∧ built1.msg.cmd = 0xFF08) ∧ faultedState.fault ≠ 0 := by decide

theorem witness_PropertyAccessorsReturnTheirBits :
    built1.fault = 0 ∧ built1.msg.propsW = true ∧ State.reset.fault = 0 ∧ State.reset.msg.propsW = false ∧
      faultedState.fault ≠ 0 := by decide

theorem witness_CommandAndLengthAccessorsReturnThem :
    built1.fault = 0 ∧ built1.msg.cmdW = true ∧ BlockInv built1 ∧ built1.msg.tag ≠ .none ∧
      State.reset.msg.cmdW = false ∧ State.reset.msg.tag = .none ∧ faultedState.fault ≠ 0 :=
  ⟨by decide, by decide, inv_built1, by decide, by decide, by decide, by decide⟩

theorem witness_PayloadAccessorsReturnTheActiveArm :
    built1.fault = 0 ∧ built1.msg.tag = .stby ∧ built2.fault = 0 ∧ built2.msg.tag = .hb ∧ State.reset.msg.tag = .none ∧
      { built1.msg with tag := .sar }.tag = .sar := by decide

theorem witness_ReadableFieldsFollowMessageState :
    BlockInv parsed1 ∧ parsed1.fault = 0 ∧ parsed1.msg.state = .valid ∧ parsed1.msg.tag = .stby ∧
      BlockInv emptied1 ∧ emptied1.fault = 0 ∧ emptied1.msg.state = .empty :=
  ⟨inv_parsed1, by decide, by decide, by decide, inv_emptied1, by decide, by decide⟩

theorem witness_ReadableFieldsFollowMessageState_contentInvalid :
    BlockInv contentInvalid1 ∧ contentInvalid1.fault = 0 ∧ contentInvalid1.msg.state = .contentInvalid :=
  ⟨inv_contentInvalid1, by decide, by decide⟩

theorem witness_ReadableFieldsFollowMessageState_arms :
    BlockInv parsed2 ∧ parsed2.fault = 0 ∧ parsed2.msg.state = .valid ∧ parsed2.msg.tag = .hb ∧
      BlockInv parsedSar ∧ parsedSar.fault = 0 ∧ parsedSar.msg.state = .valid ∧ parsedSar.msg.tag = .sar :=
  ⟨inv_parsed2, by decide, by decide, by decide, inv_parsedSar, by decide, by decide, by decide⟩

theorem witness_AccessorsHaveNoSideEffects :
    ∃ t, exec .getStandby built1 = .next t ∧ t.ret = .flag true :=
  view_some (f := (·.ret)) (by decide)

theorem witness_ChecksumLaws : [0x01#8, 0xFF#8].Perm [0xFF#8, 0x01#8] ∧ 7 < 8 :=
  ⟨List.Perm.swap _ _ _, by decide⟩

/-! `PUSH_BYTE`. -/

theorem witness_PushByteScansSignature :
    State.reset.fault = 0 ∧ State.reset.parser.idx = 0 ∧ (midFrame 1 ex1).fault = 0 ∧ (midFrame 1 ex1).parser.idx = 1 ∧
      1 < (midFrame 1 ex1).cfg.bufCap := by decide

/-- The first and the last index, those at which a field is captured, and the two beside a check. -/
theorem witness_PushByteAccumulates :
    ∀ n ∈ [2, 3, 5, 7, 8, 10, 12], (midFrame n ex2).fault = 0 ∧ 2 ≤ (midFrame n ex2).parser.idx ∧
      (midFrame n ex2).parser.idx < (midFrame n ex2).cfg.bufCap ∧ (midFrame n ex2).parser.idx ≠ 9 ∧
      (midFrame n ex2).parser.idx ≠ 11 ∧
      (12 ≤ (midFrame n ex2).parser.idx →
        (midFrame n ex2).parser.idx + 1 ≠ 12 + (midFrame n ex2).parser.capLen.toNat) := by decide +kernel

theorem witness_PushByteChecksCommandCode :
    (midFrame 9 ex1).fault = 0 ∧ (midFrame 9 ex1).parser.idx = 9 ∧ 9 < (midFrame 9 ex1).cfg.bufCap ∧
      ((midFrame 9 ex1).parser.sb.write 9 0xFF).rd16 8 = 0xFF05 ∧
      ((midFrame 9 ex1).parser.sb.write 9 0x00).rd16 8 ∉ [0xFF03#16, 0xFF05#16, 0xFF08#16] := by decide +kernel

/-- A good header; a length of 0x0101, which breaks the rule and the checksum; and R129's clauses by variant at their
limits. -/
theorem witness_PushByteChecksHeader :
    (midFrame 11 ex1).fault = 0 ∧ (midFrame 11 ex1).parser.idx = 11 ∧ 11 < (midFrame 11 ex1).cfg.bufCap ∧
      ((midFrame 11 ex1).parser.sb.write 11 0x00).rd16 10 = 1 ∧
      ¬LengthBroken Config.hardware (midFrame 11 ex1).parser.capCmd 1 ∧
      cksum16 (((midFrame 11 ex1).parser.sb.write 11 0x00).readRange 6 6) = (midFrame 11 ex1).parser.capHck ∧
      ((midFrame 11 ex1).parser.sb.write 11 0x01).rd16 10 = 0x0101 ∧
      cksum16 (((midFrame 11 ex1).parser.sb.write 11 0x01).readRange 6 6) ≠ (midFrame 11 ex1).parser.capHck ∧
      LengthBroken Config.hardware 0xFF05 0 ∧ LengthBroken Config.hardware 0xFF05 2 ∧
      LengthBroken Config.hardware 0xFF08 14 ∧ ¬LengthBroken Config.hardware 0xFF08 15 ∧
      LengthBroken Config.hardware 0xFF03 1013 ∧ ¬LengthBroken Config.hardware 0xFF03 1012 := by decide +kernel

/-- A frame one byte short of its end, by variant: its payload checksum matches for the right last byte. -/
theorem witness_PushByteCompletesFrame :
    ∀ f ∈ [ex1, ex2, exSar], (midFrame (f.length - 1) f).fault = 0 ∧ 12 ≤ (midFrame (f.length - 1) f).parser.idx ∧
      (midFrame (f.length - 1) f).parser.idx < (midFrame (f.length - 1) f).cfg.bufCap ∧
      (midFrame (f.length - 1) f).parser.idx + 1 = 12 + (midFrame (f.length - 1) f).parser.capLen.toNat ∧
      (midFrame (f.length - 1) f).parser.capCmd = rd16 f 8 ∧
      cksum16 (((midFrame (f.length - 1) f).parser.sb.write (f.length - 1) (byteAt f (f.length - 1))).readRange 12
        (midFrame (f.length - 1) f).parser.capLen.toNat) = (midFrame (f.length - 1) f).parser.capPck ∧
      cksum16 (((midFrame (f.length - 1) f).parser.sb.write (f.length - 1) 0x99).readRange 12
        (midFrame (f.length - 1) f).parser.capLen.toNat) ≠ (midFrame (f.length - 1) f).parser.capPck := by
  decide +kernel

/-- The three command codes of those frames. (Which of the two JSON clauses a text falls under, `JsonParse` alone
decides; it falls under one of them.) -/
theorem witness_PushByteCompletesFrame_commands :
    rd16 ex1 8 = 0xFF05 ∧ rd16 ex2 8 = 0xFF08 ∧ rd16 exSar 8 = 0xFF03 ∧
      (Config.jsonParse [0x5B, 0x5D] = none ∨ ∃ d, Config.jsonParse [0x5B, 0x5D] = some d) := by
  refine ⟨by decide, by decide, by decide, ?_⟩
  cases Config.jsonParse [0x5B, 0x5D] with
  | none => exact .inl rfl
  | some d => exact .inr ⟨d, rfl⟩

/-- V-EX-4 with its payload checksum 0, and with another one. -/
theorem witness_ZeroLengthFrameCompletesOnTwelfthByte :
    ∀ f ∈ [ex4, ex4.set 4 1], (midFrame 11 f).fault = 0 ∧ (midFrame 11 f).parser.idx = 11 ∧
      11 < (midFrame 11 f).cfg.bufCap ∧ ((midFrame 11 f).parser.sb.write 11 0x00).rd16 10 = 0 ∧
      (midFrame 11 f).parser.capCmd = 0xFF03 ∧
      cksum16 (((midFrame 11 f).parser.sb.write 11 0x00).readRange 6 6) = (midFrame 11 f).parser.capHck ∧
      (midFrame 11 f).parser.capPck = rd16 f 4 ∧ rd16 ex4 4 = 0 ∧ rd16 (ex4.set 4 1) 4 ≠ 0 := by decide +kernel

theorem witness_PushByteStatusWords :
    (∃ t, exec (.pushByte 0x54) State.reset = .next t ∧ t.ret = .status 0x00) ∧
      ∃ t, exec (.pushByte 0x54) faultedState = .next t ∧ t.ret = .status 0x80 :=
  ⟨view_some (f := (·.ret)) (by decide), view_some (f := (·.ret)) (by decide)⟩

theorem witness_PushByteLeavesMessageReadableOnlyOnDone :
    (midFrame 12 ex1).fault = 0 ∧ ∃ t, exec (.pushByte 0x01) (midFrame 12 ex1) = .next t ∧ t.lastStatus = 0x01 :=
  ⟨by decide, view_some (f := (·.lastStatus)) (by decide +kernel)⟩

theorem witness_PushByteFrame : ∃ t, exec (.pushByte 0x54) State.reset = .next t ∧ t.parser.idx = 1 :=
  view_some (f := (·.parser.idx)) (by decide)

theorem witness_PushByteAlwaysCompletes : BlockInv built1 := inv_built1

/-! Frame commands, `FEED`. -/

theorem witness_FrameCommandsDecodePayload :
    (midFrame 13 ex1).fault = 0 ∧ (midFrame 13 ex1).frameReady 0xFF05 = true ∧
      (midFrame 27 ex2).frameReady 0xFF08 = true ∧ (midFrame 14 exSar).frameReady 0xFF03 = true ∧
      (midFrame 12 ex4).frameReady 0xFF03 = true := by decide +kernel

theorem witness_FrameCommandsNeedCompleteFrame :
    State.reset.fault = 0 ∧ State.reset.frameReady 0xFF03 = false ∧ State.reset.frameReady 0xFF05 = false ∧
      (midFrame 13 ex1).frameReady 0xFF08 = false ∧ BlockInv built1 :=
  ⟨by decide, by decide, by decide, by decide +kernel, inv_built1⟩

theorem witness_LastByteRunsFrameCommand :
    (midFrame 12 ex1).fault = 0 ∧ 12 ≤ (midFrame 12 ex1).parser.idx ∧
      (midFrame 12 ex1).parser.idx < (midFrame 12 ex1).cfg.bufCap ∧
      ({ midFrame 12 ex1 with
          parser := { (midFrame 12 ex1).parser with sb := (midFrame 12 ex1).parser.sb.write 12 0x01, idx := 13 } } :
        State).frameReady (midFrame 12 ex1).parser.capCmd = true ∧
      decodeCommand (midFrame 12 ex1).parser.capCmd = some .setStandbyState := by decide +kernel

theorem witness_FeedPushesUntilDone : BlockInv built1 ∧ built1.fault = 0 ∧ faultedState.fault ≠ 0 :=
  ⟨inv_built1, by decide, by decide⟩

/-- V-PAR-13. -/
theorem witness_FeedIsChunkingIndependent :
    State.reset.fault = 0 ∧ ∃ t u, exec (.feed (some (ex1.take 5))) State.reset = .next t ∧
      t.ret = .feed false 5 [] 0x00 ∧ exec (.feed (some (ex1.drop 5))) t = .next u ∧ u.ret = .feed true 8 [] 0x01 := by
  have h : view (exec (.feed (some (ex1.take 5))) State.reset)
      (fun t => (t.ret, view (exec (.feed (some (ex1.drop 5))) t) (·.ret))) =
        some (.feed false 5 [] 0x00, some (.feed true 8 [] 0x01)) := by decide +kernel
  obtain ⟨t, h₁, h₂⟩ := view_some h
  obtain ⟨u, h₃, h₄⟩ := view_some (congrArg Prod.snd h₂)
  exact ⟨by decide, t, u, h₁, congrArg Prod.fst h₂, h₃, h₄⟩

/-! The serializer. -/

theorem witness_SerializeLaysOutFrame :
    BlockInv built1 ∧ built1.fault = 0 ∧ built1.msg.state = .building ∧ built1.msg.propsW = true ∧
      built1.msg.cmdW = true ∧ built1.msg.tag ≠ .none ∧ BlockInv parsed1 ∧ parsed1.msg.state = .valid ∧
      State.reset.fault = 0 ∧ State.reset.msg.propsW = false ∧ faultedState.fault ≠ 0 :=
  ⟨inv_built1, by decide, by decide, by decide, by decide, by decide, inv_parsed1, by decide, by decide, by decide,
    by decide⟩

theorem witness_PayloadEncodings :
    built1.msg.tag = .stby ∧ { built1.msg with tag := .sar }.tag = .sar ∧ built2.msg.tag = .hb ∧
      12 ≤ built2.cfg.hbLen ∧ built2.cfg.hbEncMode = .symmetric ∧
      { built2.cfg with hbEncMode := .legacyDup }.hbEncMode = .legacyDup := by decide

theorem serialize_built1 :
    ∃ t, exec .serialize built1 = .next t ∧ (t.ret, t.fault) = (.output ex1 13, 0) :=
  view_some (f := fun t => (t.ret, t.fault)) (by decide +kernel)

theorem witness_SerializeTwiceIsSerializeOnce : ∃ t, exec .serialize built1 = .next t ∧ t.fault = 0 :=
  serialize_built1.imp fun _ h => ⟨h.1, congrArg Prod.snd h.2⟩

theorem witness_GetOutReturnsOutputBuffer :
    let s : State := { State.reset with out := { ob := Memory.ofBytes 0 ex1, outLen := 13, outValid := true } }
    s.fault = 0 ∧ s.out.outValid = true ∧ State.reset.out.outValid = false ∧ faultedState.fault ≠ 0 := by decide

/-- The message changed after the serialization (V-SER-5's shape). -/
theorem witness_GetOutReturnsLastSerialization :
    ∃ t u : State, exec .serialize built1 = .next t ∧ t.ret = .output ex1 13 ∧ u.out = t.out ∧ u.fault = 0 ∧
      u.msg = State.reset.msg := by
  obtain ⟨t, h, hr⟩ := serialize_built1
  exact ⟨t, { t with msg := State.reset.msg }, h, congrArg Prod.fst hr, rfl, congrArg Prod.snd hr, rfl⟩

theorem witness_OnlySerializeAndResetWriteOutput :
    Instr.setProps 1 ≠ .serialize ∧ Instr.setProps 1 ≠ .reset ∧
      ∃ t, exec (.setProps 1) State.reset = .next t ∧ t.msg.props = 1 :=
  ⟨by decide, by decide, view_some (f := (·.msg.props)) (by decide)⟩

theorem witness_HeartbeatCodecRoundTrip :
    12 ≤ Config.hardware.hbLen ∧ Config.hardware.hbEncMode = .symmetric ∧
      { Config.hardware with hbEncMode := .legacyDup }.hbLen = 15 := by decide

/-- By variant; of a JSON message the conditions are R169's own on the capability. -/
theorem witness_SerializeThenFeedRoundTrips :
    (BlockInv built1 ∧ RoundTrips built1 ∧ built1.parser.idx = 0 ∧
        ∃ t, exec .serialize built1 = .next t ∧ t.ret = .output ex1 13) ∧
      BlockInv built2 ∧ RoundTrips built2 ∧ built2.parser.idx = 0 ∧
        ∃ t, exec .serialize built2 = .next t ∧ t.ret = .output ex2 27 := by
  refine ⟨⟨inv_built1, trivial, rfl, ?_⟩, inv_built2, trivial, rfl, ?_⟩
  · exact serialize_built1.imp fun _ h => ⟨h.1, congrArg Prod.fst h.2⟩
  · exact view_some (f := (·.ret)) (by decide +kernel)

/-- A JSON message as `SET_SAR d` builds it, for a text within `SAR_MAX_LEN`. -/
def sarMessage (d : JsonDoc) : State :=
  { built1 with
    msg :=
      { built1.msg with
        cmd := cmdSar, tag := .sar, sarDoc := d, plen := BitVec.ofNat 16 (Config.jsonRender d).length } }

/-- The SAR arm. No document is known to meet R169's premise `JSON_ROUNDTRIP(d)`, which R9 does not assume of the
capability; any that does, up to the longest text `SET_SAR` sends whole, meets all the hypotheses. -/
theorem witness_SerializeThenFeedRoundTrips_sar (d : JsonDoc) (hlen : (Config.jsonRender d).length ≤ 256)
    (hround : Config.jsonParse (Config.jsonRender d) = some d) :
    BlockInv (sarMessage d) ∧ RoundTrips (sarMessage d) ∧ (sarMessage d).parser.idx = 0 ∧
      ∃ t o n, exec .serialize (sarMessage d) = .next t ∧ t.ret = .output o n := by
  have hplen : (sarMessage d).msg.plen.toNat = (Config.jsonRender d).length :=
    (BitVec.toNat_ofNat _ 16).trans (Nat.mod_eq_of_lt (by omega))
  have hlimit : (sarMessage d).msg.plen.toNat ≤ 256 := hplen ▸ hlen
  have hfits : ¬(sarMessage d).cfg.bufCap < 12 + (sarMessage d).msg.plen.toNat := by
    show ¬(1024 < _)
    omega
  refine ⟨idle_inv rfl rfl ?_, ⟨hplen.symm, hlimit.trans (show 256 ≤ 1012 by decide), hround⟩, rfl,
    (sarMessage d).putOut (sarMessage d).serialized, _, _, ?_, rfl⟩
  · refine ⟨?_, ?_, ?_, ?_, ?_, fun _ => hlimit.trans (by decide), ?_⟩ <;> simp [built1] <;> decide
  · rw [exec, execSerialize, if_neg (show ¬(sarMessage d).fault ≠ 0#8 from not_not_intro rfl),
      if_neg (show ¬(sarMessage d).populated = false from Bool.noConfusion), if_neg hfits]

/-- The first and the last bit of the covered range, and both bytes of the command code. -/
theorem witness_HeaderBitFlipIsRejected :
    BlockInv built1 ∧ built1.fault = 0 ∧ built1.parser.idx = 0 ∧ 0xFF05#16 ∈ [0xFF03#16, 0xFF05#16, 0xFF08#16] ∧
      (6 ≤ 6 ∧ 6 < 12 ∧ 0 < 8) ∧ (6 ≤ 8 ∧ 8 < 12) ∧ (6 ≤ 9 ∧ 9 < 12) ∧ 6 ≤ 11 ∧ 11 < 12 ∧ 7 < 8 :=
  ⟨inv_built1, by decide, by decide, by decide, by decide, by decide, by decide, by decide, by decide, by decide⟩

theorem witness_PayloadBitFlipIsRejected :
    BlockInv built1 ∧ built1.fault = 0 ∧ built1.parser.idx = 0 ∧ 0xFF05#16 ∈ [0xFF03#16, 0xFF05#16, 0xFF08#16] ∧
      [0x01#8].length ≤ 65535 ∧ ¬LengthBroken built1.cfg 0xFF05 (BitVec.ofNat 16 [0x01#8].length) ∧
      0 < [0x01#8].length ∧ 7 < 8 :=
  ⟨inv_built1, by decide, by decide, by decide, by decide, by decide, by decide, by decide⟩

/-! Invariants. -/

theorem witness_StepKeepsInvariant :
    BlockInv built1 ∧ ∃ t, step built1 = .next t ∧ t.port = [] :=
  ⟨inv_built1, view_some (f := (·.port)) (by decide)⟩

theorem witness_InvariantStateAlwaysSteps : BlockInv built1 := inv_built1

/-- The host issues the first operation of P1, and the block runs it. -/
theorem witness_ReachedStatesMeetMessageInvariants : ∃ t, Reached t ∧ t.msg.propsW = true := by
  have hr : Reached { State.reset with cfg := Config.hardware } := .reset Config.hardware (by decide) (by decide)
  obtain ⟨t, h, hp⟩ := view_some (o := step (issued [0x10, 0x34, 0x12])) (f := (·.msg.propsW)) (x := true) (by decide)
  exact ⟨t, .step _ t (.issue _ [0x10, 0x34, 0x12] [] hr) h, hp⟩

/-- Two states with different bytes in the registers that hold no value, and an operation on them. -/
theorem witness_UnheldValuesAreUnobservable :
    let p : ParserRegs := { built1.parser with capHck := 5, capLen := 9 }
    let m : MsgRegs := { built1.msg with sarDoc := ⟨3⟩, hb := built2.msg.hb }
    let t : State := { State.reset with parser := p, msg := m }
    BlockInv built1 ∧ BlockInv t ∧ Agree built1 t ∧ ∃ s', exec .getStandby built1 = .next s' ∧ s'.ret = .flag true := by
  refine ⟨inv_built1, idle_inv rfl rfl (by constructor <;> decide), ⟨rfl, rfl, rfl, rfl, ?_, ?_, rfl, rfl, rfl⟩,
    view_some (f := (·.ret)) (by decide)⟩
  · constructor <;> simp [built1, State.reset]
  · constructor <;> simp [built1, State.reset]

end Sys2Proof.Tests
end

namespace Sys2Proof

/-- R8's constraints as propositions. -/
theorem Config.wf_iff (c : Config) :
    c.wf = true ↔ 12 ≤ c.hbLen ∧ c.hbLen ≤ c.bufCap - 12 ∧ c.sarParseLimit ≤ c.bufCap - 12 ∧ 1 ≤ c.bufCap - 12 := by
  simp only [Config.wf, Bool.and_eq_true, decide_eq_true_eq, and_assoc]

end Sys2Proof

/-! What no instruction writes (R7, R8, R59): the configuration and what the host has issued. -/

namespace Sys2Proof.Machine

section HostFields

variable {s t u : State}

/-- The two states hold the same configuration, host port and handed-over documents. -/
structure SameHost (s t : State) : Prop where
  cfg : t.cfg = s.cfg
  port : t.port = s.port
  docs : t.docs = s.docs

theorem SameHost.trans (hst : SameHost s t) (htu : SameHost t u) : SameHost s u :=
  ⟨htu.cfg.trans hst.cfg, htu.port.trans hst.port, htu.docs.trans hst.docs⟩

theorem KeepsRest.sameHost (h : KeepsRest s t) : SameHost s t := ⟨h.cfg, h.port, h.docs⟩

theorem State.returns_sameHost (s : State) (r : HostResult) : SameHost s (s.returns r) := ⟨rfl, rfl, rfl⟩

theorem State.raiseFault_sameHost (s : State) (code : Byte) : SameHost s (s.raiseFault code) := ⟨rfl, rfl, rfl⟩

theorem State.building_sameHost (s : State) (m : MsgRegs) : SameHost s (s.building m) := ⟨rfl, rfl, rfl⟩

theorem State.commit_sameHost (s : State) (g : Tag) (m : MsgRegs) : SameHost s (s.commit g m) := ⟨rfl, rfl, rfl⟩

theorem State.contentError_sameHost (s : State) : SameHost s s.contentError := ⟨rfl, rfl, rfl⟩

theorem State.takeFrame_sameHost (s : State) : SameHost s s.takeFrame := ⟨rfl, rfl, rfl⟩

theorem State.resetBlock_sameHost (s : State) : SameHost s s.resetBlock := ⟨rfl, rfl, rfl⟩

theorem State.putOut_sameHost (s : State) (o : List Byte) : SameHost s (s.putOut o) := ⟨rfl, rfl, rfl⟩

/-- A choice between two states keeps what both keep. -/
theorem SameHost.ite {p : Prop} [Decidable p] (ht : SameHost s t) (hu : SameHost s u) :
    SameHost s (if p then t else u) := by
  split
  · exact ht
  · exact hu

theorem SameHost.unlessFaulted (r : HostResult) (h : SameHost s t) : SameHost s (s.unlessFaulted r t) :=
  SameHost.ite (s.returns_sameHost r) h

theorem State.access_sameHost (s : State) (available : Bool) (r : HostResult) : SameHost s (s.access available r) :=
  .unlessFaulted _ (.ite (s.returns_sameHost r) (s.raiseFault_sameHost faultRead))

theorem State.decodeSar_sameHost (s : State) (pay : List Byte) : SameHost s (s.decodeSar pay) := by
  unfold State.decodeSar
  split
  · exact s.contentError_sameHost
  · exact s.commit_sameHost _ _

/-- `FEED` runs bytes and writes its result (R140), so the fields no byte writes stand. -/
theorem State.feedLoop_sameHost {n : Nat} {diag : Byte} {bs : List Byte} (h : s.feedLoop n diag bs = .ok t) :
    SameHost s t := by
  induction bs generalizing s n diag with
  | nil =>
    rw [State.feedLoop_nil] at h
    cases h
    exact s.returns_sameHost _
  | cons b bs ih =>
    cases hb : s.parseByte b with
    | error f =>
      rw [State.feedLoop, hb] at h
      cases h
    | ok m =>
      have hsm : SameHost s m := (State.parseByte_keeps hb).sameHost
      rw [State.feedLoop_cons n diag bs hb] at h
      split at h
      · cases h
        exact hsm.trans (m.returns_sameHost _)
      · exact hsm.trans (ih h)

/-! One statement for both facts about an instruction's outcome: it is no refusal, and a next state keeps the host's
fields. -/

/-- The outcome is a next state with the host's fields of `s`, or a fault. -/
def HostKept (s : State) : Host.Outcome State Fault Refusal → Prop
  | .next t => SameHost s t
  | .fault _ => True
  | .refused _ => False

theorem HostKept.outcomeOf {r : Except Fault State} (h : ∀ t, r = .ok t → SameHost s t) :
    HostKept s (outcomeOf r) := by
  cases r with
  | ok t => exact h t rfl
  | error f => trivial

theorem execPushByte_hostKept (b : Byte) (s : State) : HostKept s (execPushByte b s) := by
  unfold execPushByte
  split
  · exact s.returns_sameHost _
  · exact .outcomeOf fun _ h => (State.parseByte_keeps h).sameHost

theorem execFeed_hostKept (bs : Option (List Byte)) (s : State) : HostKept s (execFeed bs s) := by
  unfold execFeed
  split
  · exact s.returns_sameHost _
  · cases bs with
    | none => exact s.raiseFault_sameHost _
    | some bs => exact .outcomeOf fun _ h => State.feedLoop_sameHost h

theorem execSerialize_hostKept (s : State) : HostKept s (execSerialize s) := by
  unfold execSerialize
  split
  · exact s.returns_sameHost _
  · split
    · exact s.raiseFault_sameHost _
    · split
      · trivial
      · exact s.putOut_sameHost _

theorem execSetSar_hostKept (d : Option JsonDoc) (s : State) : HostKept s (execSetSar d s) := by
  cases d with
  | none => exact SameHost.unlessFaulted _ (s.raiseFault_sameHost _)
  | some doc => exact SameHost.unlessFaulted _ (.ite (s.building_sameHost _) (s.raiseFault_sameHost _))

/-- No instruction is refused, and none writes the configuration, the port or the documents. -/
theorem exec_hostKept (i : Instr) (s : State) : HostKept s (exec i s) := by
  cases i with
  | pushByte b => exact execPushByte_hostKept b s
  | feed bs => exact execFeed_hostKept bs s
  | setProps _ => exact SameHost.unlessFaulted _ (s.building_sameHost _)
  | setCmd _ => exact SameHost.unlessFaulted _ (.ite (s.raiseFault_sameHost _) (s.building_sameHost _))
  | setSar d => exact execSetSar_hostKept d s
  | setStandby _ | setHeartbeat _ _ _ _ _ =>
    exact SameHost.unlessFaulted _ (.ite (s.building_sameHost _) (s.raiseFault_sameHost _))
  | serialize => exact execSerialize_hostKept s
  | getOut | getProps | getPriority | getAck | getVersion | getReserved | getCmd | getLen | getSar | getSarText
  | getStandby | getHeartbeat => exact s.access_sameHost _ _
  | getStatus => exact s.returns_sameHost _
  | reset => exact s.resetBlock_sameHost
  | setSarMode =>
    exact SameHost.unlessFaulted _
      (.ite (s.takeFrame_sameHost.trans (s.takeFrame.decodeSar_sameHost _)) (s.returns_sameHost _))
  | setStandbyState | heartbeat =>
    exact SameHost.unlessFaulted _
      (.ite (s.takeFrame_sameHost.trans (s.takeFrame.commit_sameHost _ _)) (s.returns_sameHost _))

theorem exec_sameHost {i : Instr} (h : exec i s = .next t) : SameHost s t := by
  have hk := exec_hostKept i s
  rwa [h] at hk

theorem exec_ne_refused (i : Instr) (s : State) (r : Refusal) : exec i s ≠ .refused r := by
  intro h
  have hk := exec_hostKept i s
  rwa [h] at hk

end HostFields

/-! What a step does, by the configuration and by what it fetches. -/

theorem step_of_not_wf {s : State} (h : ¬s.cfg.wf = true) : step s = .refused .badConfiguration :=
  if_neg h

theorem step_of_run {s t : State} {i : Instr} (hw : s.cfg.wf = true) (h : s.fetch = .run i t) : step s = exec i t := by
  rw [step, if_pos hw, h]

theorem step_of_illegal {s t : State} (hw : s.cfg.wf = true) (h : s.fetch = .illegal t) :
    step s = .next t.illegalOp := by
  rw [step, if_pos hw, h]

theorem step_of_wait {s : State} (hw : s.cfg.wf = true) (h : s.fetch = .wait) : step s = .next s := by
  rw [step, if_pos hw, h]

/-- With no complete frame in `SB`, an operation at the head of the port is fetched, its bytes and document taken. -/
theorem State.fetch_of_op {s : State} {i : Instr} {rest : List Byte} {ds : List JsonDoc}
    (hp : s.pendingCommand = none) (hd : decodeHostOp s.port s.docs = .op i rest ds) :
    s.fetch = .run i { s with port := rest, docs := ds } := by
  rw [State.fetch, hp, hd]

/-- Under a configuration that meets R8 a step answers a next state or a fault. -/
theorem step_ne_refused {s : State} (hw : s.cfg.wf = true) (r : Refusal) : step s ≠ .refused r := by
  cases hf : s.fetch with
  | run i t => rw [step_of_run hw hf]; exact exec_ne_refused i t r
  | illegal t => rw [step_of_illegal hw hf]; exact nofun
  | wait => rw [step_of_wait hw hf]; exact nofun

/-! The statements of scope. -/

/-- Settles O9: `Config.wf` is R8's list, `step` tests it first, and no instruction refuses. -/
theorem onlyBadConfigurationRefused : Obligations.OnlyBadConfigurationRefused := by
  unfold Obligations.OnlyBadConfigurationRefused
  intro s
  rw [← Config.wf_iff]
  exact ⟨step_ne_refused, step_of_not_wf⟩

/-- Settles O11, by the case split over the instructions in `exec_hostKept`. -/
theorem noInstructionWritesConfigurationOrPort : Obligations.NoInstructionWritesConfigurationOrPort := by
  unfold Obligations.NoInstructionWritesConfigurationOrPort
  intro i s t h
  obtain ⟨hcfg, hport, hdocs⟩ := exec_sameHost h
  exact ⟨hcfg, hport, hdocs⟩

/-- Settles O6: what is fetched is the operation at the head of the port, and a step runs what it fetches. -/
theorem stepRunsIssuedOperation : Obligations.StepRunsIssuedOperation := by
  unfold Obligations.StepRunsIssuedOperation
  intro s i rest ds hw hp hd
  exact step_of_run hw (State.fetch_of_op hp hd)

end Sys2Proof.Machine

/-! The message registers under R30: no message, a message being built, a committed frame. -/

namespace Sys2Proof.Machine

section MessageInvariant

variable {cfg : Config} {m : MsgRegs}

/-- No message stands in MSG: nothing is set, and it is not valid (R35, R122, R134). -/
structure MsgUnset (m : MsgRegs) : Prop where
  propsW : m.propsW = false
  cmdW : m.cmdW = false
  tag : m.tag = .none
  notValid : m.state ≠ .valid

theorem State.clearMsg_unset (s : State) : MsgUnset s.clearMsg.msg := ⟨rfl, rfl, rfl, nofun⟩

theorem MsgUnset.contentInvalid (h : MsgUnset m) : MsgUnset { m with state := .contentInvalid } :=
  ⟨h.propsW, h.cmdW, h.tag, nofun⟩

theorem MsgUnset.inv (h : MsgUnset m) : MsgInv cfg m := by
  obtain ⟨hp, hc, ht, hv⟩ := h
  constructor <;> simp [hp, hc, ht, hv]

/-- R30's rule for the payload length of an active arm. -/
def PayloadLength (cfg : Config) : Tag → Nat → Prop
  | .none, _ => False
  | .sar, n => n ≤ max cfg.sarMaxLen cfg.sarParseLimit
  | .stby, n => n = 1
  | .hb, n => n = cfg.hbLen

/-- The length rule the parser checks (R129) gives R30's. -/
theorem payloadLength_of_lenBad {c len : U16} (hk : known c = true) (h : lenBad cfg c len = false) :
    PayloadLength cfg (variantOf c) len.toNat := by
  rw [known_iff] at hk
  unfold lenBad at h
  cases hv : variantOf c <;> simp only [hv, ne_eq, not_true_eq_false, decide_eq_false_iff_not] at h hk
  · exact le_max_of_le_right (by omega)
  · exact not_not.mp h
  · exact not_not.mp h

/-- A message with a payload of the variant of its command and of an admitted length meets R30. -/
theorem MsgInv.of_payload (hc : m.cmdW = true) (hv : variantOf m.cmd = m.tag)
    (hl : PayloadLength cfg m.tag m.plen.toNat) (hs : m.state = .building ∨ m.state = .valid ∧ m.propsW = true) :
    MsgInv cfg m := by
  have ht : m.tag ≠ .none := fun h => by rwa [h] at hl
  constructor
  case emptyUnset => obtain hs | ⟨hs, _⟩ := hs <;> simp [hs]
  case cmdKnown => exact fun _ => known_iff.mpr (hv ▸ ht)
  case tagOfCmd => exact fun _ => ⟨hc, hv⟩
  case stbyLen => intro h; rwa [h] at hl
  case hbLen => intro h; rwa [h] at hl
  case sarLen => intro h; rwa [h] at hl
  case validSet =>
    obtain hs | ⟨_, hp⟩ := hs
    · simp [hs]
    · exact fun _ => ⟨hp, hc, ht⟩

/-- Setting the properties changes the state to `BUILDING` and nothing else that R30 speaks of (R200). -/
theorem MsgInv.setProps (h : MsgInv cfg m) (v : U16) :
    MsgInv cfg { m with props := v, propsW := true, state := .building } :=
  ⟨by simp, h.cmdKnown, h.tagOfCmd, h.stbyLen, h.hbLen, h.sarLen, nofun⟩

/-- The tag `SET_CMD` leaves (R201) is none, or the old one where that is the new code's variant. -/
theorem setCmdTag_cases (c : U16) (g : Tag) :
    (if g ≠ .none ∧ variantOf c ≠ g then Tag.none else g) = .none ∨
      (if g ≠ .none ∧ variantOf c ≠ g then Tag.none else g) = g ∧ variantOf c = g := by
  split
  · exact .inl rfl
  · next h =>
    by_cases hg : g = .none
    · exact .inl hg
    · exact .inr ⟨rfl, by simpa [hg] using h⟩

/-- A known code meets R30 with no payload, or with the old one where that is of its variant. -/
theorem MsgInv.setCmd {c : U16} {g : Tag} (h : MsgInv cfg m) (hc : known c = true)
    (hg : g = .none ∨ g = m.tag ∧ variantOf c = m.tag) :
    MsgInv cfg { m with tag := g, cmd := c, cmdW := true, state := .building } := by
  obtain rfl | ⟨rfl, hv⟩ := hg
  · constructor <;> simp [hc]
  · exact ⟨by simp, fun _ => hc, fun _ => ⟨rfl, hv⟩, h.stbyLen, h.hbLen, h.sarLen, nofun⟩

end MessageInvariant

end Sys2Proof.Machine

/-! The parser registers while a byte is taken (R22 to R24, R124 to R131, R146). -/

namespace Sys2Proof.Machine

section ParserInvariant

variable {cfg : Config} {p : ParserRegs} {b : Byte}

/-- A byte stored at `idx`, before its field is captured (R124). -/
def ParserRegs.stored (p : ParserRegs) (b : Byte) : ParserRegs :=
  { p with sb := p.sb.write p.idx b, idx := p.idx + 1 }

theorem State.accepted_parser (s : State) (b : Byte) : (s.accepted b).parser = (s.parser.stored b).capture := rfl

theorem ParserRegs.capture_of_idx_lt (h : p.idx < 4) : p.capture = p := by
  rw [ParserRegs.capture, if_neg (by omega), if_neg (by omega), if_neg (by omega), if_neg (by omega), if_neg (by omega)]

/-! The registers after a byte is stored and its field captured. -/

theorem ParserRegs.idx_capture_stored (p : ParserRegs) (b : Byte) : (p.stored b).capture.idx = p.idx + 1 :=
  ParserRegs.capture_idx _

theorem ParserRegs.sb_capture_stored (p : ParserRegs) (b : Byte) :
    (p.stored b).capture.sb = p.sb.write p.idx b :=
  ParserRegs.capture_sb _

theorem ParserRegs.capHck_capture_stored (p : ParserRegs) (b : Byte) :
    (p.stored b).capture.capHck = if p.idx + 1 = 4 then (p.sb.write p.idx b).rd16 2 else p.capHck :=
  ParserRegs.capture_capHck _

theorem ParserRegs.capPck_capture_stored (p : ParserRegs) (b : Byte) :
    (p.stored b).capture.capPck = if p.idx + 1 = 6 then (p.sb.write p.idx b).rd16 4 else p.capPck :=
  ParserRegs.capture_capPck _

theorem ParserRegs.capProps_capture_stored (p : ParserRegs) (b : Byte) :
    (p.stored b).capture.capProps = if p.idx + 1 = 8 then (p.sb.write p.idx b).rd16 6 else p.capProps :=
  ParserRegs.capture_capProps _

theorem ParserRegs.capCmd_capture_stored (p : ParserRegs) (b : Byte) :
    (p.stored b).capture.capCmd = if p.idx + 1 = 10 then (p.sb.write p.idx b).rd16 8 else p.capCmd :=
  ParserRegs.capture_capCmd _

theorem ParserRegs.capLen_capture_stored (p : ParserRegs) (b : Byte) :
    (p.stored b).capture.capLen = if p.idx + 1 = 12 then (p.sb.write p.idx b).rd16 10 else p.capLen :=
  ParserRegs.capture_capLen _

/-- The parser invariant after a byte is captured and before its checks: the frame may just have ended, and what the
checks at 10 and at 12 establish holds only past them. -/
structure CapturedInv (cfg : Config) (p : ParserRegs) : Prop where
  sbWf : p.sb.wf = true
  sbBound : ∀ c ∈ p.sb, c.1 < cfg.bufCap
  idxToEnd : p.idx ≤ 12 ∨ p.idx ≤ 12 + p.capLen.toNat
  sigFirst : 1 ≤ p.idx → p.sb.read 0 = sig
  sigSecond : 2 ≤ p.idx → p.sb.read 1 = sig
  hckCaptured : 4 ≤ p.idx → p.capHck = p.sb.rd16 2
  pckCaptured : 6 ≤ p.idx → p.capPck = p.sb.rd16 4
  propsCaptured : 8 ≤ p.idx → p.capProps = p.sb.rd16 6
  cmdCaptured : 10 ≤ p.idx → p.capCmd = p.sb.rd16 8
  cmdKnown : 10 < p.idx → known p.capCmd = true
  lenCaptured : 12 ≤ p.idx → p.capLen = p.sb.rd16 10
  lenGood : 12 < p.idx → lenBad cfg p.capCmd p.capLen = false
  headerChecked : 12 < p.idx → cksum16 (p.sb.readRange 6 6) = p.capHck

/-- With no frame in progress the invariant speaks of `SB` alone. -/
theorem ParserInv.idle (hw : p.sb.wf = true) (hb : ∀ c ∈ p.sb, c.1 < cfg.bufCap) :
    ParserInv cfg { p with idx := 0 } := by
  constructor
  case sbWf => exact hw
  case sbBound => exact hb
  all_goals simp

theorem ParserInv.dropFrame (h : ParserInv cfg p) : ParserInv cfg { p with idx := 0 } := .idle h.sbWf h.sbBound

theorem CapturedInv.dropFrame (h : CapturedInv cfg p) : ParserInv cfg { p with idx := 0 } := .idle h.sbWf h.sbBound

/-- A field of two bytes at `o` holds them after a byte is stored: the byte is its last one, or lies past it. -/
theorem capturedField_stored {o : Nat} {cap : U16} (b : Byte) (h : o + 2 ≤ p.idx → cap = p.sb.rd16 o)
    (ho : o + 2 ≤ p.idx + 1) :
    (if p.idx + 1 = o + 2 then (p.sb.write p.idx b).rd16 o else cap) = (p.sb.write p.idx b).rd16 o := by
  split
  · rfl
  · rw [Memory.rd16_write b (.inr (by omega)), h (by omega)]

/-- One of the two signature bytes, after a signature byte is stored on it or any byte past it (R123). -/
theorem sigByte_stored {k : Nat} (hw : p.sb.wf = true) (hb : p.idx < 2 → b = sig) (hk : k < 2)
    (h : k + 1 ≤ p.idx → p.sb.read k = sig) (hi : k + 1 ≤ p.idx + 1) : (p.sb.write p.idx b).read k = sig := by
  by_cases hlt : k = p.idx
  · rw [hlt, Memory.read_write_same p.idx b hw, hb (by omega)]
  · rw [Memory.read_write_other b hlt, h (by omega)]

/-- Storing a byte and capturing its field keeps what the frame's earlier bytes established. -/
theorem ParserInv.capture_stored (h : ParserInv cfg p) (hlt : p.idx < cfg.bufCap) (hb : p.idx < 2 → b = sig) :
    CapturedInv cfg (p.stored b).capture := by
  have hidx := p.idx_capture_stored b
  have hsb := p.sb_capture_stored b
  constructor
  case sbWf => rw [hsb]; exact Memory.write_wf p.idx b h.sbWf
  case sbBound =>
    intro c hc
    rw [hsb] at hc
    obtain hc | hc := Memory.mem_write hc
    · exact hc ▸ hlt
    · exact h.sbBound c hc
  case idxToEnd =>
    rw [hidx, ParserRegs.capLen_capture_stored]
    by_cases h12 : p.idx < 12
    · exact .inl h12
    · rw [if_neg (by omega)]
      exact .inr (by have := h.idxBelowEnd; omega)
  case sigFirst => rw [hidx, hsb]; exact sigByte_stored h.sbWf hb (by decide) h.sigFirst
  case sigSecond => rw [hidx, hsb]; exact sigByte_stored h.sbWf hb (by decide) h.sigSecond
  case hckCaptured =>
    rw [hidx, hsb, ParserRegs.capHck_capture_stored]
    exact capturedField_stored b h.hckCaptured
  case pckCaptured =>
    rw [hidx, hsb, ParserRegs.capPck_capture_stored]
    exact capturedField_stored b h.pckCaptured
  case propsCaptured =>
    rw [hidx, hsb, ParserRegs.capProps_capture_stored]
    exact capturedField_stored b h.propsCaptured
  case cmdCaptured =>
    rw [hidx, hsb, ParserRegs.capCmd_capture_stored]
    exact capturedField_stored b h.cmdCaptured
  case lenCaptured =>
    rw [hidx, hsb, ParserRegs.capLen_capture_stored]
    exact capturedField_stored b h.lenCaptured
  case cmdKnown =>
    intro hi
    rw [ParserRegs.capCmd_capture_stored, if_neg (by omega)]
    exact h.cmdKnown (by omega)
  case lenGood =>
    intro hi
    rw [ParserRegs.capCmd_capture_stored, if_neg (by omega), ParserRegs.capLen_capture_stored, if_neg (by omega)]
    exact h.lenGood (by omega)
  case headerChecked =>
    intro hi
    rw [hsb, Memory.readRange_write b (.inr (by omega)), ParserRegs.capHck_capture_stored, if_neg (by omega)]
    exact h.headerChecked (by omega)

/-- What the checks at 12 establish, in every captured state whose header status is clear (R129, R130). -/
theorem CapturedInv.header_of_status {u : State} (h : CapturedInv u.cfg u.parser) (hi : 12 ≤ u.parser.idx)
    (hs : u.parser.idx = 12 → u.headerStatus = 0x00#8) :
    lenBad u.cfg u.parser.capCmd u.parser.capLen = false ∧
      cksum16 (u.parser.sb.readRange 6 6) = u.parser.capHck := by
  by_cases h12 : u.parser.idx = 12
  · exact headerStatus_eq_zero.mp (hs h12)
  · exact ⟨h.lenGood (by omega), h.headerChecked (by omega)⟩

/-- Past its checks, with its frame not complete, a captured state meets the parser invariant. -/
theorem CapturedInv.checked (h : CapturedInv cfg p) (hend : ¬(12 ≤ p.idx ∧ p.idx = 12 + p.capLen.toNat))
    (hk : p.idx = 10 → known p.capCmd = true)
    (hh : 12 ≤ p.idx → lenBad cfg p.capCmd p.capLen = false ∧ cksum16 (p.sb.readRange 6 6) = p.capHck) :
    ParserInv cfg p where
  sbWf := h.sbWf
  sbBound := h.sbBound
  idxBelowEnd := by have := h.idxToEnd; omega
  sigFirst := h.sigFirst
  sigSecond := h.sigSecond
  hckCaptured := h.hckCaptured
  pckCaptured := h.pckCaptured
  propsCaptured := h.propsCaptured
  cmdCaptured := h.cmdCaptured
  cmdKnown hi := (Nat.eq_or_lt_of_le hi).elim (fun h10 => hk h10.symm) h.cmdKnown
  lenCaptured := h.lenCaptured
  lenGood hi := (hh hi).1
  headerChecked hi := (hh hi).2

end ParserInvariant

end Sys2Proof.Machine

/-! Every operation keeps the invariant. -/

namespace Sys2Proof.Machine

section BlockInvariant

variable {s t u : State}

/-- The fields a byte writes meet their parts of the invariant. -/
structure ByteInv (t : State) : Prop where
  parser : ParserInv t.cfg t.parser
  msg : MsgInv t.cfg t.msg
  status : t.lastStatus ∈ latchedStatuses

/-- What a byte leaves meets the invariant when the fields it writes do. -/
theorem BlockInv.of_keepsRest (h : BlockInv s) (hk : KeepsRest s t) (ht : ByteInv t) : BlockInv t where
  cfgWf := hk.cfg ▸ h.cfgWf
  cfgFits := hk.cfg ▸ h.cfgFits
  parser := ht.parser
  msg := ht.msg
  out := by rw [hk.cfg, hk.out]; exact h.out
  status := ht.status
  fault := hk.fault ▸ h.fault

theorem ByteInv.finish (hp : ParserInv u.cfg u.parser) (hm : MsgInv u.cfg u.msg) {st : Byte}
    (hst : st ∈ latchedStatuses) : ByteInv (u.finish st) :=
  ⟨hp, hm, hst⟩

theorem CapturedInv.resync (h : CapturedInv u.cfg u.parser) (hm : MsgUnset u.msg) {st : Byte}
    (hst : st ∈ latchedStatuses) : ByteInv (u.resync st) :=
  .finish (u := u.setIdx 0) h.dropFrame hm.inv hst

/-- A committed frame whose header passed its checks meets R30 (R133). -/
theorem CapturedInv.commit (h : CapturedInv u.cfg u.parser) (m : MsgRegs) {g : Tag}
    (hl : lenBad u.cfg u.parser.capCmd u.parser.capLen = false) (hg : variantOf u.parser.capCmd = g)
    (hn : g ≠ .none) : ByteInv ((u.setIdx 0).commit g m) :=
  have hlen : PayloadLength u.cfg g u.parser.capLen.toNat :=
    hg ▸ payloadLength_of_lenBad (known_iff.mpr (hg ▸ hn)) hl
  .finish h.dropFrame (.of_payload rfl hg hlen (.inr ⟨rfl, rfl⟩)) (by decide)

theorem CapturedInv.completeFrame (h : CapturedInv u.cfg u.parser) (hm : MsgUnset u.msg)
    (hl : lenBad u.cfg u.parser.capCmd u.parser.capLen = false) : ByteInv u.completeFrame := by
  rcases u.completeFrame_cases with
    ⟨_, he⟩ | ⟨_, _, he⟩ | ⟨_, _, _, he⟩ | ⟨d, _, hg, _, he⟩ | ⟨_, hg, he⟩ | ⟨_, hg, he⟩ <;> rw [he]
  · exact h.resync hm (by decide)
  · exact h.resync hm (by decide)
  · exact .finish h.dropFrame hm.contentInvalid.inv (by decide)
  · exact h.commit _ hl hg nofun
  · exact h.commit _ hl hg nofun
  · exact h.commit _ hl hg nofun

theorem State.headerStatus_latched (u : State) : u.headerStatus ∈ latchedStatuses := by
  have hsub : [0x00#8, 0x08#8, 0x10#8, 0x18#8] ⊆ latchedStatuses := by decide
  exact hsub (headerStatus_cases _ _ _ _ _)

/-- The checks of R128 to R135 turn a captured state into one that meets the invariant. -/
theorem CapturedInv.checkByte (h : CapturedInv u.cfg u.parser) (hm : MsgUnset u.msg) : ByteInv u.checkByte := by
  rcases u.checkByte_cases with ⟨_, _, he⟩ | ⟨_, _, he⟩ | ⟨hi, _, hs, he⟩ | ⟨hend, hk, hs, he⟩ <;> rw [he]
  · exact h.resync hm (by decide)
  · exact h.resync hm u.headerStatus_latched
  · exact h.completeFrame hm (h.header_of_status hi hs).1
  · exact .finish (h.checked hend hk fun hi => h.header_of_status hi hs) hm.inv (by decide)

/-- One byte keeps the invariant (R120). -/
theorem BlockInv.parseByte (h : BlockInv s) {b : Byte} (ht : s.parseByte b = .ok t) : BlockInv t := by
  refine h.of_keepsRest (State.parseByte_keeps ht) ?_
  rcases State.parseByte_cases ht with ⟨hi, hb, hlt, rfl⟩ | ⟨_, _, rfl⟩ | ⟨hi, hlt, rfl⟩
  · have hc := h.parser.capture_stored hlt fun _ => hb
    rw [ParserRegs.capture_of_idx_lt (by simp only [ParserRegs.stored]; omega)] at hc
    have hidx : (s.parser.stored b).idx = s.parser.idx + 1 := rfl
    exact .finish (u := { s.clearMsg with parser := s.parser.stored b })
      (hc.checked (by omega) (by omega) (by omega)) s.clearMsg_unset.inv (by decide)
  · exact .finish (u := s.clearMsg.setIdx 0) h.parser.dropFrame s.clearMsg_unset.inv (by decide)
  · have hc := h.parser.capture_stored (b := b) hlt (by omega)
    rw [← State.accepted_parser] at hc
    exact hc.checkByte s.clearMsg_unset

theorem BlockInv.returns (h : BlockInv s) (r : HostResult) : BlockInv (s.returns r) :=
  ⟨h.cfgWf, h.cfgFits, h.parser, h.msg, h.out, h.status, h.fault⟩

theorem BlockInv.raiseFault (h : BlockInv s) {code : Byte} (hc : code ∈ faultCodes) : BlockInv (s.raiseFault code) :=
  ⟨h.cfgWf, h.cfgFits, h.parser, h.msg, h.out, h.status, hc⟩

theorem BlockInv.building (h : BlockInv s) {m : MsgRegs} (hm : MsgInv s.cfg { m with state := .building }) :
    BlockInv (s.building m) :=
  ⟨h.cfgWf, h.cfgFits, h.parser, hm, h.out, h.status, h.fault⟩

/-- What the host issues (R59) is no part of the invariant. -/
theorem BlockInv.issue (h : BlockInv s) (port : List Byte) (docs : List JsonDoc) :
    BlockInv { s with port := port, docs := docs } :=
  ⟨h.cfgWf, h.cfgFits, h.parser, h.msg, h.out, h.status, h.fault⟩

theorem BlockInv.unlessFaulted (h : BlockInv s) (r : HostResult) (ht : BlockInv t) :
    BlockInv (s.unlessFaulted r t) := by
  rcases s.unlessFaulted_cases r t with ⟨_, he⟩ | ⟨_, he⟩ <;> rw [he]
  · exact h.returns r
  · exact ht

theorem BlockInv.access (h : BlockInv s) (available : Bool) (r : HostResult) : BlockInv (s.access available r) := by
  rcases s.access_cases available r with ⟨_, he⟩ | ⟨_, _, he⟩ | ⟨_, _, he⟩ <;> rw [he]
  · exact h.returns _
  · exact h.returns r
  · exact h.raiseFault (by decide)

theorem BlockInv.illegalOp (h : BlockInv s) : BlockInv s.illegalOp :=
  h.unlessFaulted _ (h.raiseFault (by decide))

/-- The reset values under any admitted configuration, whatever the host has issued (R35, R260). -/
theorem BlockInv.of_reset {cfg : Config} (hw : cfg.wf = true) (hf : cfg.fits = true) (port : List Byte)
    (docs : List JsonDoc) : BlockInv { State.reset with cfg := cfg, port := port, docs := docs } where
  cfgWf := hw
  cfgFits := hf
  parser := .idle (p := State.reset.parser) rfl nofun
  msg := MsgUnset.inv ⟨rfl, rfl, rfl, nofun⟩
  out := ⟨rfl, nofun, Nat.zero_le _, fun _ => ⟨rfl, rfl⟩⟩
  status := List.mem_cons_self
  fault := List.mem_cons_self

/-- Between operations no complete frame stands in `SB` (R135, R146). -/
theorem BlockInv.frameReady_eq_false (h : BlockInv s) (c : U16) : s.frameReady c = false := by
  have hend : ¬(12 ≤ s.parser.idx ∧ s.parser.idx = 12 + s.parser.capLen.toNat) := by
    have := h.parser.idxBelowEnd; omega
  by_contra hr
  simp only [State.frameReady, Bool.not_eq_false, Bool.and_eq_true, decide_eq_true_eq] at hr
  obtain ⟨⟨⟨⟨hi, he⟩, _⟩, _⟩, _⟩ := hr
  exact hend ⟨hi, he⟩

/-- A payload setter (R202 to R204) keeps the invariant: it faults, or leaves a payload of the variant of the command
set. -/
theorem BlockInv.setPayload (h : BlockInv s) {g : Tag} {m : MsgRegs} (hw : m.cmdW = s.msg.cmdW)
    (hc : m.cmd = s.msg.cmd) (hg : m.tag = g) (hl : PayloadLength s.cfg g m.plen.toNat) :
    BlockInv (s.unlessFaulted .refused (if s.accepts g then s.building m else s.raiseFault faultVariant)) := by
  refine h.unlessFaulted _ ?_
  split
  · next ha =>
    obtain ⟨hcw, hv⟩ := State.accepts_iff.mp ha
    exact h.building (.of_payload (hw.trans hcw) ((hc ▸ hv).trans hg.symm) (hg ▸ hl) (.inl rfl))
  · exact h.raiseFault (by decide)

/-- `HB_LEN` has a 16-bit value (R8, log entry 3). -/
theorem BlockInv.hbLen_toNat (h : BlockInv s) : (BitVec.ofNat 16 s.cfg.hbLen).toNat = s.cfg.hbLen := by
  obtain ⟨_, hcap, _, _⟩ := s.cfg.wf_iff.mp h.cfgWf
  have hf := h.cfgFits
  simp only [Config.fits, Bool.and_eq_true, decide_eq_true_eq] at hf
  rw [BitVec.toNat_ofNat, Nat.mod_eq_of_lt (by omega)]

/-- A next state of the outcome meets the invariant. -/
def InvKept (o : Host.Outcome State Fault Refusal) : Prop :=
  ∀ t, o = .next t → BlockInv t

theorem InvKept.next (h : BlockInv t) : InvKept (.next t) := by
  rintro _ ⟨⟩
  exact h

theorem BlockInv.execPushByte (h : BlockInv s) (b : Byte) : InvKept (execPushByte b s) := by
  unfold Machine.execPushByte
  split
  · exact .next (h.returns _)
  · exact fun t ht => h.parseByte (outcomeOf_next.mp ht)

theorem BlockInv.feedLoop (h : BlockInv s) {n : Nat} {diag : Byte} {bs : List Byte}
    (ht : s.feedLoop n diag bs = .ok t) : BlockInv t := by
  induction bs generalizing s n diag with
  | nil =>
    rw [State.feedLoop_nil] at ht
    cases ht
    exact h.returns _
  | cons b bs ih =>
    cases hb : s.parseByte b with
    | error f =>
      rw [State.feedLoop, hb] at ht
      cases ht
    | ok m =>
      have hm : BlockInv m := h.parseByte hb
      rw [State.feedLoop_cons n diag bs hb] at ht
      split at ht
      · cases ht
        exact hm.returns _
      · exact ih hm ht

theorem BlockInv.execFeed (h : BlockInv s) (bs : Option (List Byte)) : InvKept (execFeed bs s) := by
  unfold Machine.execFeed
  split
  · exact .next (h.returns _)
  · cases bs with
    | none => exact .next (h.raiseFault (by decide))
    | some bs => exact fun t ht => h.feedLoop (outcomeOf_next.mp ht)

theorem BlockInv.execSetCmd (h : BlockInv s) (c : U16) : InvKept (execSetCmd c s) := by
  refine .next (h.unlessFaulted _ ?_)
  split
  · exact h.raiseFault (by decide)
  · next hk => exact h.building (h.msg.setCmd (by simpa using hk) (setCmdTag_cases c s.msg.tag))

theorem BlockInv.execSetSar (h : BlockInv s) (d : Option JsonDoc) : InvKept (execSetSar d s) := by
  cases d with
  | none => exact .next (h.unlessFaulted _ (h.raiseFault (by decide)))
  | some doc =>
    have hlen : (BitVec.ofNat 16 (min (Config.jsonRender doc).length s.cfg.sarMaxLen)).toNat ≤ s.cfg.sarMaxLen := by
      rw [BitVec.toNat_ofNat]
      exact (Nat.mod_le _ _).trans (min_le_right _ _)
    exact .next (h.setPayload rfl rfl rfl (le_max_of_le_left hlen))

/-- A serialization is held in `OB` from address 0 on, within `BUF_CAP` (R31, R166). -/
theorem BlockInv.putOut (h : BlockInv s) {o : List Byte} (ho : o.length ≤ s.cfg.bufCap) : BlockInv (s.putOut o) where
  cfgWf := h.cfgWf
  cfgFits := h.cfgFits
  parser := h.parser
  msg := h.msg
  out :=
    { obWf := Memory.ofBytes_wf 0 o
      obBound := fun c hc => by simpa using (Memory.mem_ofBytes hc).2
      lenBound := ho
      unsetEmpty := nofun }
  status := h.status
  fault := h.fault

theorem BlockInv.execSerialize (h : BlockInv s) : InvKept (execSerialize s) := by
  intro t ht
  rcases execSerialize_next ht with ⟨_, rfl⟩ | ⟨_, _, rfl⟩ | ⟨_, _, hl, rfl⟩
  · exact h.returns _
  · exact h.raiseFault (by decide)
  · exact h.putOut (s.serialized_length ▸ hl)

/-- A frame command finds no complete frame to decode (log entry 9). -/
theorem BlockInv.frameCommand (h : BlockInv s) (c : U16) (u : State) :
    s.unlessFaulted .refused (if s.frameReady c then u else s.returns .none) =
      s.unlessFaulted .refused (s.returns .none) := by
  rw [h.frameReady_eq_false c]
  rfl

/-- Every instruction keeps the invariant. -/
theorem BlockInv.exec (h : BlockInv s) (i : Instr) : InvKept (exec i s) := by
  cases i with
  | pushByte b => exact h.execPushByte b
  | feed bs => exact h.execFeed bs
  | setProps v => exact .next (h.unlessFaulted _ (h.building (h.msg.setProps v)))
  | setCmd c => exact h.execSetCmd c
  | setSar d => exact h.execSetSar d
  | setStandby f => exact .next (h.setPayload (g := .stby) rfl rfl rfl rfl)
  | setHeartbeat e n v t m => exact .next (h.setPayload (g := .hb) rfl rfl rfl h.hbLen_toNat)
  | serialize => exact h.execSerialize
  | getOut | getProps | getPriority | getAck | getVersion | getReserved | getCmd | getLen | getSar | getSarText
  | getStandby | getHeartbeat => exact .next (h.access _ _)
  | getStatus => exact .next (h.returns _)
  | reset => exact .next (.of_reset h.cfgWf h.cfgFits s.port s.docs)
  | setSarMode | setStandbyState | heartbeat =>
    exact .next ((h.frameCommand _ _).symm ▸ h.unlessFaulted _ (h.returns _))

/-- All that a step can fetch: an instruction or an illegal code, with at most the host's fields changed, or nothing. -/
theorem State.fetch_cases (s : State) :
    (∃ i port docs, s.fetch = .run i { s with port := port, docs := docs }) ∨
      (∃ port docs, s.fetch = .illegal { s with port := port, docs := docs }) ∨ s.fetch = .wait := by
  cases hp : s.pendingCommand with
  | some i => exact .inl ⟨i, s.port, s.docs, by rw [State.fetch, hp]⟩
  | none =>
    cases hd : decodeHostOp s.port s.docs with
    | op i rest docs => exact .inl ⟨i, rest, docs, State.fetch_of_op hp hd⟩
    | illegal code rest => exact .inr (.inl ⟨rest, s.docs, by rw [State.fetch, hp, hd]⟩)
    | incomplete => exact .inr (.inr (by rw [State.fetch, hp, hd]))

theorem BlockInv.step (h : BlockInv s) : InvKept (step s) := by
  rcases s.fetch_cases with ⟨i, port, docs, hf⟩ | ⟨port, docs, hf⟩ | hf
  · rw [step_of_run h.cfgWf hf]
    exact (h.issue port docs).exec i
  · rw [step_of_illegal h.cfgWf hf]
    exact .next (h.issue port docs).illegalOp
  · rw [step_of_wait h.cfgWf hf]
    exact .next h

/-- Every state of a run meets the invariant. -/
theorem Reached.inv (h : Reached s) : BlockInv s := by
  induction h with
  | reset cfg hw hf => exact .of_reset hw hf [] []
  | issue s port docs _ ih => exact ih.issue _ _
  | step s t _ hs ih => exact ih.step t hs

end BlockInvariant

/-! The statements about the invariant. -/

/-- Settles O57: `step` runs what it fetches, and every instruction keeps the invariant. -/
theorem stepKeepsInvariant : Obligations.StepKeepsInvariant := by
  unfold Obligations.StepKeepsInvariant
  intro s t h hs
  exact h.step t hs

/-- Settles O59: a reached state meets the invariant, whose message part is R30's list. -/
theorem reachedStatesMeetMessageInvariants : Obligations.ReachedStatesMeetMessageInvariants := by
  unfold Obligations.ReachedStatesMeetMessageInvariants
  intro s hs
  have h : MsgInv s.cfg s.msg := hs.inv.msg
  exact ⟨h.emptyUnset, fun hc => mem_known.mpr (h.cmdKnown hc), h.tagOfCmd,
    fun ht => BitVec.eq_of_toNat_eq (h.stbyLen ht), h.hbLen, h.sarLen, h.validSet⟩

/-- Settles O56: the reset values meet the invariant under every admitted configuration, the hardware's included. -/
theorem resetMeetsInvariant : Obligations.ResetMeetsInvariant := by
  unfold Obligations.ResetMeetsInvariant
  exact .of_reset (cfg := Config.hardware) (by decide) (by decide) [] []

/-- Settles O12: `State.reset` evaluated, element by element. -/
theorem resetStateHoldsResetValues : Obligations.ResetStateHoldsResetValues := by
  unfold Obligations.ResetStateHoldsResetValues
  decide

end Sys2Proof.Machine

/-! Noninterference (R35, R36): what holds no value is never read. The parser registers first, as a byte is taken. -/

namespace Sys2Proof.Machine

section ParserAgreement

variable {cfg : Config} {p q : ParserRegs} {b : Byte}

/-- With no frame in progress nothing of the parser may be read. -/
theorem ParserAgree.idle (p q : ParserRegs) : ParserAgree { p with idx := 0 } { q with idx := 0 } := by
  constructor <;> simp

/-- `SB` agrees on one byte more after the same byte is stored in both. -/
theorem ParserAgree.read_stored (h : ParserAgree p q) (hp : p.sb.wf = true) (hq : q.sb.wf = true) (b : Byte) (a : Nat)
    (ha : a < p.idx + 1) : (p.sb.write p.idx b).read a = (q.sb.write q.idx b).read a := by
  rw [← h.idx]
  by_cases hn : a = p.idx
  · rw [hn, Memory.read_write_same _ b hp, Memory.read_write_same _ b hq]
  · rw [Memory.read_write_other b hn, Memory.read_write_other b hn, h.sb a (by omega)]

/-- A field of two bytes at `o`, captured on its last byte, agrees from then on. -/
theorem agreedField_stored {o : Nat} {cap cap' : U16} {m m' : Memory} (hi : p.idx = q.idx)
    (hm : ∀ a, a < p.idx + 1 → m.read a = m'.read a) (h : o + 2 ≤ p.idx → cap = cap') (ho : o + 2 ≤ p.idx + 1) :
    (if p.idx + 1 = o + 2 then m.rd16 o else cap) = if q.idx + 1 = o + 2 then m'.rd16 o else cap' := by
  rw [← hi]
  split
  · exact Memory.rd16_congr fun a _ ha => hm a (by omega)
  · exact h (by omega)

/-- The same byte taken by two parsers that agree. -/
theorem ParserAgree.capture_stored (h : ParserAgree p q) (hp : p.sb.wf = true) (hq : q.sb.wf = true) (b : Byte) :
    ParserAgree (p.stored b).capture (q.stored b).capture := by
  have hread := h.read_stored hp hq b
  constructor <;> rw [p.idx_capture_stored]
  case idx => rw [q.idx_capture_stored, h.idx]
  case sb => rw [p.sb_capture_stored, q.sb_capture_stored]; exact hread
  case hck =>
    rw [p.capHck_capture_stored, q.capHck_capture_stored]
    exact agreedField_stored h.idx hread h.hck
  case pck =>
    rw [p.capPck_capture_stored, q.capPck_capture_stored]
    exact agreedField_stored h.idx hread h.pck
  case props =>
    rw [p.capProps_capture_stored, q.capProps_capture_stored]
    exact agreedField_stored h.idx hread h.props
  case cmd =>
    rw [p.capCmd_capture_stored, q.capCmd_capture_stored]
    exact agreedField_stored h.idx hread h.cmd
  case len =>
    rw [p.capLen_capture_stored, q.capLen_capture_stored]
    exact agreedField_stored h.idx hread h.len

/-- A complete frame's end is the same in both. -/
theorem ParserAgree.ended_iff (h : ParserAgree p q) :
    12 ≤ p.idx ∧ p.idx = 12 + p.capLen.toNat ↔ 12 ≤ q.idx ∧ q.idx = 12 + q.capLen.toNat := by
  rw [← h.idx]
  exact and_congr_right fun hi => by rw [h.len hi]

end ParserAgreement

section MessageAgreement

variable {m n : MsgRegs}

theorem MsgAgree.of_unset (hm : MsgUnset m) (hn : MsgUnset n) (hs : m.state = n.state) : MsgAgree m n := by
  obtain ⟨hmp, hmc, hmt, _⟩ := hm
  obtain ⟨hnp, hnc, hnt, _⟩ := hn
  constructor <;> simp [hmp, hmc, hmt, hnp, hnc, hnt, hs]

/-- The command's variant is read only where the command is set. -/
theorem MsgAgree.accepts_eq {s t : State} (h : MsgAgree s.msg t.msg) (g : Tag) : s.accepts g = t.accepts g := by
  rw [Bool.eq_iff_iff, State.accepts_iff, State.accepts_iff, ← h.cmdW]
  exact and_congr_right fun hc => by rw [h.cmd hc]

end MessageAgreement

section BlockAgreement

variable {s t s' t' u v : State}

theorem Agree.returns (h : Agree s t) (r : HostResult) : Agree (s.returns r) (t.returns r) :=
  ⟨h.cfg, h.port, h.docs, rfl, h.parser, h.msg, h.out, h.lastStatus, h.fault⟩

theorem Agree.raiseFault (h : Agree s t) (code : Byte) : Agree (s.raiseFault code) (t.raiseFault code) :=
  ⟨h.cfg, h.port, h.docs, rfl, h.parser, h.msg, h.out, h.lastStatus, rfl⟩

theorem Agree.building (h : Agree s t) {m n : MsgRegs}
    (hm : MsgAgree { m with state := .building } { n with state := .building }) :
    Agree (s.building m) (t.building n) :=
  ⟨h.cfg, h.port, h.docs, rfl, h.parser, hm, h.out, h.lastStatus, h.fault⟩

theorem Agree.clearMsg (h : Agree s t) : Agree s.clearMsg t.clearMsg :=
  ⟨h.cfg, h.port, h.docs, h.ret, h.parser, .of_unset s.clearMsg_unset t.clearMsg_unset rfl, h.out, h.lastStatus,
    h.fault⟩

theorem Agree.dropFrame (h : Agree s t) : Agree (s.setIdx 0) (t.setIdx 0) :=
  ⟨h.cfg, h.port, h.docs, h.ret, .idle _ _, h.msg, h.out, h.lastStatus, h.fault⟩

theorem Agree.finish (h : Agree s t) (st : Byte) : Agree (s.finish st) (t.finish st) :=
  ⟨h.cfg, h.port, h.docs, rfl, h.parser, h.msg, h.out, rfl, h.fault⟩

theorem Agree.resync (h : Agree s t) (st : Byte) : Agree (s.resync st) (t.resync st) := h.dropFrame.finish st

theorem Agree.setParser (h : Agree s t) {p q : ParserRegs} (hp : ParserAgree p q) :
    Agree { s with parser := p } { t with parser := q } :=
  ⟨h.cfg, h.port, h.docs, h.ret, hp, h.msg, h.out, h.lastStatus, h.fault⟩

theorem Agree.setMsg (h : Agree s t) {m n : MsgRegs} (hm : MsgAgree m n) :
    Agree { s with msg := m } { t with msg := n } :=
  ⟨h.cfg, h.port, h.docs, h.ret, h.parser, hm, h.out, h.lastStatus, h.fault⟩

/-- Two choices that are made alike. -/
theorem Agree.ite {a c : Prop} [Decidable a] [Decidable c] (hac : a ↔ c) (ht : a → Agree s t)
    (hf : ¬a → Agree u v) : Agree (if a then s else u) (if c then t else v) := by
  by_cases ha : a
  · rw [if_pos ha, if_pos (hac.mp ha)]
    exact ht ha
  · rw [if_neg ha, if_neg (mt hac.mpr ha)]
    exact hf ha

theorem Agree.unlessFaulted (h : Agree s t) (r : HostResult) (hu : Agree u v) :
    Agree (s.unlessFaulted r u) (t.unlessFaulted r v) :=
  .ite (by rw [h.fault]) (fun _ => h.returns r) fun _ => hu

/-- An accessor that is available alike, and reads alike where it is. -/
theorem Agree.access (h : Agree s t) {a c : Bool} {r r' : HostResult} (ha : a = c) (hr : a = true → r = r') :
    Agree (s.access a r) (t.access c r') :=
  h.unlessFaulted _ (.ite (by rw [ha]) (fun hav => hr hav ▸ h.returns r) fun _ => h.raiseFault _)

/-- A payload setter that leaves registers that agree. -/
theorem Agree.setPayload (h : Agree s t) (g : Tag) {m n : MsgRegs}
    (hm : s.accepts g = true → MsgAgree { m with state := .building } { n with state := .building }) :
    Agree (s.unlessFaulted .refused (if s.accepts g then s.building m else s.raiseFault faultVariant))
      (t.unlessFaulted .refused (if t.accepts g then t.building n else t.raiseFault faultVariant)) :=
  h.unlessFaulted _ (.ite (by rw [h.msg.accepts_eq]) (fun ha => h.building (hm ha)) fun _ => h.raiseFault _)

/-- The two frames commit the same header fields (R133), and `m` and `n` hold the same decoded arm. -/
theorem Agree.commit (h : Agree s t) (hi : 12 ≤ s.parser.idx) (g : Tag) {m n : MsgRegs}
    (hd : g = .sar → m.sarDoc = n.sarDoc) (hf : g = .stby → m.stby = n.stby) (hr : g = .hb → m.hb = n.hb) :
    Agree ((s.setIdx 0).commit g m) ((t.setIdx 0).commit g n) := by
  refine (h.dropFrame.setMsg ?_).finish stDone
  exact ⟨rfl, rfl, rfl, rfl, fun _ => h.parser.props (by omega), fun _ => h.parser.cmd (by omega),
    fun _ => h.parser.len hi, hd, hf, hr⟩

theorem Agree.contentError (h : Agree s t) (hs : MsgUnset s.msg) (ht : MsgUnset t.msg) :
    Agree s.contentError t.contentError :=
  (h.setMsg (.of_unset hs.contentInvalid ht.contentInvalid rfl)).finish stContent

/-- The payload of a complete frame lies below `idx` (R57). -/
theorem Agree.payload_eq (h : Agree s t) (hi : 12 ≤ s.parser.idx) (he : s.parser.idx = 12 + s.parser.capLen.toNat) :
    s.payload = t.payload := by
  rw [State.payload, State.payload, ← h.parser.len hi]
  exact Memory.readRange_congr fun a _ ha => h.parser.sb a (by omega)

theorem Agree.decodeSar (h : Agree s t) (hi : 12 ≤ s.parser.idx) (hs : MsgUnset s.msg) (ht : MsgUnset t.msg)
    (pay : List Byte) : Agree ((s.setIdx 0).decodeSar pay) ((t.setIdx 0).decodeSar pay) := by
  unfold State.decodeSar
  cases Config.jsonParse pay with
  | none => exact h.dropFrame.contentError hs ht
  | some d => exact h.commit hi .sar (fun _ => rfl) nofun nofun

/-- A complete frame ends alike in both (R132 to R135). -/
theorem Agree.completeFrame (h : Agree s t) (hi : 12 ≤ s.parser.idx)
    (he : s.parser.idx = 12 + s.parser.capLen.toNat) (hs : MsgUnset s.msg) (ht : MsgUnset t.msg) :
    Agree s.completeFrame t.completeFrame := by
  unfold State.completeFrame
  rw [← h.payload_eq hi he, ← h.parser.cmd (by omega), ← h.parser.pck (by omega)]
  refine .ite Iff.rfl (fun _ => h.resync stPck) fun _ => ?_
  cases variantOf s.parser.capCmd with
  | sar => exact h.decodeSar hi hs ht _
  | stby => exact h.commit hi .stby nofun (fun _ => rfl) nofun
  | hb => exact h.commit hi .hb nofun nofun fun _ => rfl
  | none => exact h.resync stCmd

theorem Agree.headerStatus_eq (h : Agree s t) (hi : s.parser.idx = 12) : s.headerStatus = t.headerStatus := by
  rw [State.headerStatus, State.headerStatus, h.cfg, h.parser.cmd (by omega), h.parser.len (by omega),
    h.parser.hck (by omega), Memory.readRange_congr fun a _ ha => h.parser.sb a (by omega)]

/-- The checks of a byte read what has been captured (R128 to R131). -/
theorem Agree.checkByte (h : Agree s t) (hs : MsgUnset s.msg) (ht : MsgUnset t.msg) :
    Agree s.checkByte t.checkByte := by
  have hidx := h.parser.idx
  unfold State.checkByte
  refine .ite ?_ (fun _ => h.resync stCmd) fun _ => .ite ?_ ?_ fun _ => ?_
  · rw [← hidx]
    exact and_congr_right fun hi => by rw [h.parser.cmd (by omega)]
  · rw [← hidx]
    exact and_congr_right fun hi => by rw [h.headerStatus_eq hi]
  · rintro ⟨hi, _⟩
    rw [← h.headerStatus_eq hi]
    exact h.resync _
  · exact .ite h.parser.ended_iff (fun ⟨hi, he⟩ => h.completeFrame hi he hs ht) fun _ => h.finish 0x00#8

/-- The signature scan stores a signature byte that has an address (R123). -/
theorem State.parseByte_signature (hi : s.parser.idx < 2) (hlt : s.parser.idx < s.cfg.bufCap) :
    s.parseByte sig = .ok (State.finish { s.clearMsg with parser := s.parser.stored sig } 0x00#8) := by
  have hst : s.clearMsg.storeByte sig = .ok { s.clearMsg with parser := s.parser.stored sig } :=
    State.storeByte_ok.mpr ⟨hlt, rfl⟩
  rw [State.parseByte, if_pos hi, State.scanSignature, if_pos rfl, hst]

/-- Any other byte restarts the signature scan (R123). -/
theorem State.parseByte_noise {b : Byte} (hi : s.parser.idx < 2) (hb : b ≠ sig) :
    s.parseByte b = .ok (s.clearMsg.resync stSig) := by
  rw [State.parseByte, if_pos hi, State.scanSignature, if_neg hb]

/-- One byte read by two blocks that agree (R120). -/
theorem Agree.parseByte (h : Agree s t) (hs : BlockInv s) (ht : BlockInv t) {b : Byte} (hb : s.parseByte b = .ok s') :
    ∃ t', t.parseByte b = .ok t' ∧ Agree s' t' := by
  have hidx := h.parser.idx
  have hcap : s.cfg.bufCap = t.cfg.bufCap := congrArg Config.bufCap h.cfg
  have hp := h.parser.capture_stored hs.parser.sbWf ht.parser.sbWf b
  rcases State.parseByte_cases hb with ⟨hi, rfl, hlt, rfl⟩ | ⟨hi, hne, rfl⟩ | ⟨hi, hlt, rfl⟩
  · rw [ParserRegs.capture_of_idx_lt (by simp only [ParserRegs.stored]; omega),
      ParserRegs.capture_of_idx_lt (by simp only [ParserRegs.stored]; omega)] at hp
    exact ⟨_, State.parseByte_signature (by omega) (by omega), (h.clearMsg.setParser hp).finish 0x00#8⟩
  · exact ⟨_, State.parseByte_noise (by omega) hne, h.clearMsg.resync stSig⟩
  · exact ⟨_, State.parseByte_accepted b (by omega) (by omega),
      (h.clearMsg.setParser hp).checkByte s.clearMsg_unset t.clearMsg_unset⟩

/-- Whatever next state the first outcome answers, the second answers one that agrees with it. -/
def OutcomesAgree (o o' : Host.Outcome State Fault Refusal) : Prop :=
  ∀ s, o = .next s → ∃ t, o' = .next t ∧ Agree s t

theorem OutcomesAgree.next (h : Agree s t) : OutcomesAgree (.next s) (.next t) := by
  rintro _ ⟨⟩
  exact ⟨t, rfl, h⟩

theorem OutcomesAgree.outcomeOf {r r' : Except Fault State} (h : ∀ s, r = .ok s → ∃ t, r' = .ok t ∧ Agree s t) :
    OutcomesAgree (outcomeOf r) (outcomeOf r') := by
  intro s hs
  obtain ⟨t, ht, ha⟩ := h s (outcomeOf_next.mp hs)
  exact ⟨t, outcomeOf_next.mpr ht, ha⟩

/-- Two choices of an outcome that are made alike. -/
theorem OutcomesAgree.ite {a c : Prop} [Decidable a] [Decidable c] {o o' r r' : Host.Outcome State Fault Refusal}
    (hac : a ↔ c) (ht : OutcomesAgree o o') (hf : ¬a → OutcomesAgree r r') :
    OutcomesAgree (if a then o else r) (if c then o' else r') := by
  by_cases ha : a
  · rwa [if_pos ha, if_pos (hac.mp ha)]
  · rw [if_neg ha, if_neg (mt hac.mpr ha)]
    exact hf ha

theorem Agree.execPushByte (h : Agree s t) (hs : BlockInv s) (ht : BlockInv t) (b : Byte) :
    OutcomesAgree (execPushByte b s) (execPushByte b t) :=
  .ite (by rw [h.fault]) (.next (h.returns _)) fun _ => .outcomeOf fun _ hb => h.parseByte hs ht hb

theorem Agree.feedLoop (h : Agree s t) (hs : BlockInv s) (ht : BlockInv t) {n : Nat} {diag : Byte} {bs : List Byte}
    (hl : s.feedLoop n diag bs = .ok s') : ∃ t', t.feedLoop n diag bs = .ok t' ∧ Agree s' t' := by
  induction bs generalizing s t n diag with
  | nil =>
    rw [State.feedLoop_nil] at hl
    cases hl
    exact ⟨_, t.feedLoop_nil n diag, h.returns _⟩
  | cons b bs ih =>
    cases hb : s.parseByte b with
    | error f =>
      rw [State.feedLoop, hb] at hl
      cases hl
    | ok m =>
      obtain ⟨k, hk, ha⟩ := h.parseByte hs ht hb
      rw [State.feedLoop_cons n diag bs hb] at hl
      rw [State.feedLoop_cons n diag bs hk, ← ha.lastStatus]
      split at hl
      · next hd =>
        cases hl
        exact ⟨_, if_pos hd, ha.returns _⟩
      · next hd =>
        rw [if_neg hd]
        exact ih ha (hs.parseByte hb) (ht.parseByte hk) hl

theorem Agree.execFeed (h : Agree s t) (hs : BlockInv s) (ht : BlockInv t) (bs : Option (List Byte)) :
    OutcomesAgree (execFeed bs s) (execFeed bs t) := by
  refine .ite (by rw [h.fault]) (.next (h.returns _)) fun _ => ?_
  cases bs with
  | none => exact .next (h.raiseFault _)
  | some bs => exact .outcomeOf fun _ hl => h.feedLoop hs ht hl

theorem Agree.execSetProps (h : Agree s t) (v : U16) : OutcomesAgree (execSetProps v s) (execSetProps v t) := by
  obtain ⟨hstate, hpw, hcw, htag, hprops, hcmd, hplen, hdoc, hstby, hhb⟩ := h.msg
  exact .next (h.unlessFaulted _ (h.building ⟨rfl, rfl, hcw, htag, fun _ => rfl, hcmd, hplen, hdoc, hstby, hhb⟩))

/-- The payload `SET_CMD` keeps is the old one, whole (R201). -/
theorem Agree.execSetCmd (h : Agree s t) (c : U16) : OutcomesAgree (execSetCmd c s) (execSetCmd c t) := by
  refine .next (h.unlessFaulted _ (.ite Iff.rfl (fun _ => h.raiseFault _) fun _ => h.building ?_))
  obtain ⟨hstate, hpw, hcw, htag, hprops, hcmd, hplen, hdoc, hstby, hhb⟩ := h.msg
  rw [← htag]
  rcases setCmdTag_cases c s.msg.tag with hg | ⟨hg, _⟩ <;> rw [hg]
  · exact ⟨rfl, hpw, rfl, rfl, hprops, fun _ => rfl, nofun, nofun, nofun, nofun⟩
  · exact ⟨rfl, hpw, rfl, rfl, hprops, fun _ => rfl, hplen, hdoc, hstby, hhb⟩

/-- Registers that agree still do after the arm `g` and its payload length are set alike (R202 to R204). -/
theorem MsgAgree.setArm {m n : MsgRegs} (h : MsgAgree m n) {g : Tag} {len : U16} {d d' : JsonDoc} {f f' : Bool}
    {r r' : HbRecord} (hd : g = .sar → d = d') (hf : g = .stby → f = f') (hr : g = .hb → r = r') :
    MsgAgree { m with tag := g, plen := len, sarDoc := d, stby := f, hb := r, state := .building }
      { n with tag := g, plen := len, sarDoc := d', stby := f', hb := r', state := .building } :=
  ⟨rfl, h.propsW, h.cmdW, rfl, h.props, h.cmd, fun _ => rfl, hd, hf, hr⟩

theorem Agree.execSetSar (h : Agree s t) (d : Option JsonDoc) : OutcomesAgree (execSetSar d s) (execSetSar d t) := by
  cases d with
  | none => exact .next (h.unlessFaulted _ (h.raiseFault _))
  | some doc =>
    refine .next (h.setPayload .sar fun _ => ?_)
    rw [← h.cfg]
    exact h.msg.setArm (fun _ => rfl) nofun nofun

theorem Agree.execSetStandby (h : Agree s t) (f : Bool) : OutcomesAgree (execSetStandby f s) (execSetStandby f t) :=
  .next (h.setPayload .stby fun _ => h.msg.setArm nofun (fun _ => rfl) nofun)

theorem Agree.execSetHeartbeat (h : Agree s t) (e n : U32) (v : U16) (tm m : Byte) :
    OutcomesAgree (execSetHeartbeat e n v tm m s) (execSetHeartbeat e n v tm m t) := by
  refine .next (h.setPayload .hb fun _ => ?_)
  rw [← h.cfg]
  exact h.msg.setArm nofun nofun fun _ => rfl

theorem Agree.populated_eq (h : Agree s t) : s.populated = t.populated := by
  rw [State.populated, State.populated, h.msg.state, h.msg.propsW, h.msg.cmdW, h.msg.tag]

/-- The payload is encoded from the active arm (R160, R164). -/
theorem Agree.encodePayload_eq (h : Agree s t) : s.encodePayload = t.encodePayload := by
  unfold State.encodePayload
  rw [← h.msg.tag]
  cases hg : s.msg.tag with
  | none => rfl
  | sar => simp only [h.msg.sarDoc hg, h.msg.plen (hg ▸ nofun)]
  | stby => simp only [h.msg.stby hg]
  | hb => simp only [h.msg.hb hg, h.cfg]

/-- A populated message holds a value in every field its frame carries (R160, R161). -/
theorem Agree.serialized_eq (h : Agree s t) (hp : s.populated = true) : s.serialized = t.serialized := by
  obtain ⟨_, hpw, hcw, hg⟩ := State.populated_iff.mp hp
  rw [State.serialized, State.serialized, h.msg.props hpw, h.msg.cmd hcw, h.msg.plen hg, h.encodePayload_eq]

theorem Agree.putOut (h : Agree s t) (o : List Byte) : Agree (s.putOut o) (t.putOut o) :=
  ⟨h.cfg, h.port, h.docs, rfl, h.parser, h.msg, rfl, h.lastStatus, h.fault⟩

theorem Agree.execSerialize (h : Agree s t) : OutcomesAgree (execSerialize s) (execSerialize t) := by
  unfold Machine.execSerialize
  refine .ite (by rw [h.fault]) (.next (h.returns _)) fun _ => ?_
  refine .ite (by rw [h.populated_eq]) (.next (h.raiseFault _)) fun hp => ?_
  have hp : s.populated = true := by simpa using hp
  obtain ⟨_, _, _, hg⟩ := State.populated_iff.mp hp
  refine .ite (by rw [h.cfg, h.msg.plen hg]) (fun _ hn => nomatch hn) fun _ => ?_
  rw [← h.serialized_eq hp]
  exact .next (h.putOut _)

/-- `RESET` leaves the reset values in both (R260). -/
theorem Agree.resetBlock (h : Agree s t) : Agree s.resetBlock t.resetBlock :=
  ⟨h.cfg, h.port, h.docs, rfl, .idle State.reset.parser State.reset.parser,
    .of_unset ⟨rfl, rfl, rfl, nofun⟩ ⟨rfl, rfl, rfl, nofun⟩ rfl, rfl, rfl, rfl⟩

/-- A frame command finds no complete frame in either (log entry 9). -/
theorem Agree.frameCommand (h : Agree s t) (hs : BlockInv s) (ht : BlockInv t) (c : U16) (u v : State) :
    Agree (s.unlessFaulted .refused (if s.frameReady c then u else s.returns .none))
      (t.unlessFaulted .refused (if t.frameReady c then v else t.returns .none)) := by
  rw [hs.frameCommand, ht.frameCommand]
  exact h.unlessFaulted _ (h.returns _)

/-- An accessor of the properties reads them where they are set (R207 to R211). -/
theorem Agree.accessProps (h : Agree s t) (f : U16 → HostResult) :
    OutcomesAgree (.next (s.access s.msg.propsW (f s.msg.props))) (.next (t.access t.msg.propsW (f t.msg.props))) :=
  .next (h.access h.msg.propsW fun hp => by rw [h.msg.props hp])

/-- An accessor of the payload reads the arm `g` where it is active (R214 to R217). -/
theorem Agree.accessArm (h : Agree s t) (g : Tag) {r r' : HostResult} (hr : s.msg.tag = g → r = r') :
    OutcomesAgree (.next (s.access (decide (s.msg.tag = g)) r)) (.next (t.access (decide (t.msg.tag = g)) r')) :=
  .next (h.access (by rw [h.msg.tag]) fun hg => hr (of_decide_eq_true hg))

/-- Every instruction takes two blocks that agree to ones that agree. -/
theorem Agree.exec (h : Agree s t) (hs : BlockInv s) (ht : BlockInv t) (i : Instr) :
    OutcomesAgree (exec i s) (exec i t) := by
  cases i with
  | pushByte b => exact h.execPushByte hs ht b
  | feed bs => exact h.execFeed hs ht bs
  | setProps v => exact h.execSetProps v
  | setCmd c => exact h.execSetCmd c
  | setSar d => exact h.execSetSar d
  | setStandby f => exact h.execSetStandby f
  | setHeartbeat e n v tm m => exact h.execSetHeartbeat e n v tm m
  | serialize => exact h.execSerialize
  | getOut => exact .next (h.access (by rw [h.out]) fun _ => by rw [h.out])
  | getProps => exact h.accessProps .word
  | getPriority => exact h.accessProps (.priority <| propPriority ·)
  | getAck => exact h.accessProps (.ack <| propAck ·)
  | getVersion => exact h.accessProps (.version <| propVersion ·)
  | getReserved => exact h.accessProps (.reserved <| propReserved ·)
  | getCmd => exact .next (h.access h.msg.cmdW fun hc => by rw [h.msg.cmd hc])
  | getLen => exact .next (h.access (by rw [h.msg.tag]) fun hg => by rw [h.msg.plen (of_decide_eq_true hg)])
  | getSar => exact h.accessArm .sar fun hg => by rw [h.msg.sarDoc hg]
  | getSarText => exact h.accessArm .sar fun hg => by rw [h.msg.sarDoc hg]
  | getStandby => exact h.accessArm .stby fun hg => by rw [h.msg.stby hg]
  | getHeartbeat => exact h.accessArm .hb fun hg => by rw [h.msg.hb hg]
  | getStatus =>
    refine .next ?_
    rw [h.lastStatus, h.msg.state, h.fault]
    exact h.returns _
  | reset => exact .next h.resetBlock
  | setSarMode | setStandbyState | heartbeat => exact .next (h.frameCommand hs ht _ _ _)

end BlockAgreement

/-- Settles O60: the agreement of two states is kept instruction by instruction, by `Agree.exec`. -/
theorem unheldValuesAreUnobservable : Obligations.UnheldValuesAreUnobservable := by
  unfold Obligations.UnheldValuesAreUnobservable
  intro i s t s' hs ht h hi
  exact h.exec hs ht i s' hi

end Sys2Proof.Machine

/-! Memory (R50, R56, R59, R64): which instruction writes which buffer. First what no byte writes, pushed or fed. -/

namespace Sys2Proof.Machine

section KeptByBytes

variable {s t u : State}

theorem KeepsRest.trans (hst : KeepsRest s t) (htu : KeepsRest t u) : KeepsRest s u :=
  ⟨htu.cfg.trans hst.cfg, htu.port.trans hst.port, htu.docs.trans hst.docs, htu.out.trans hst.out,
    htu.fault.trans hst.fault⟩

theorem State.returns_keeps (s : State) (r : HostResult) : KeepsRest s (s.returns r) := ⟨rfl, rfl, rfl, rfl, rfl⟩

/-- The loop of `FEED` runs bytes and writes its result (R140), so the fields no byte writes stand. -/
theorem State.feedLoop_keeps {n : Nat} {diag : Byte} {bs : List Byte} (h : s.feedLoop n diag bs = .ok t) :
    KeepsRest s t := by
  induction bs generalizing s n diag with
  | nil =>
    rw [State.feedLoop_nil] at h
    cases h
    exact s.returns_keeps _
  | cons b bs ih =>
    cases hb : s.parseByte b with
    | error f =>
      rw [State.feedLoop, hb] at h
      cases h
    | ok m =>
      have hsm : KeepsRest s m := State.parseByte_keeps hb
      rw [State.feedLoop_cons n diag bs hb] at h
      split at h
      · cases h
        exact hsm.trans (m.returns_keeps _)
      · exact hsm.trans (ih h)

end KeptByBytes

/-! The scratch buffer. -/

section ScratchBuffer

variable {s t : State} {b : Byte}

/-- A complete frame is consumed by its `idx` alone (R135). -/
theorem State.completeFrame_sb (s : State) : s.completeFrame.parser.sb = s.parser.sb := by
  rcases s.completeFrame_cases with
    ⟨_, h⟩ | ⟨_, _, h⟩ | ⟨_, _, _, h⟩ | ⟨_, _, _, _, h⟩ | ⟨_, _, h⟩ | ⟨_, _, h⟩ <;> rw [h] <;> rfl

/-- The checks of a byte read `SB` and do not write it (R128 to R135). -/
theorem State.checkByte_sb (s : State) : s.checkByte.parser.sb = s.parser.sb := by
  rcases s.checkByte_cases with ⟨_, _, h⟩ | ⟨_, _, h⟩ | ⟨_, _, _, h⟩ | ⟨_, _, _, h⟩ <;> rw [h]
  · rfl
  · rfl
  · exact s.completeFrame_sb
  · rfl

/-- A byte that is no signature byte where one is due is dropped (R123); every other byte is stored at `idx` (R124). -/
theorem State.parseByte_sb (h : s.parseByte b = .ok t) :
    t.parser.sb = s.parser.sb ∨ t.parser.sb = s.parser.sb.write s.parser.idx b := by
  rcases State.parseByte_cases h with ⟨_, _, _, rfl⟩ | ⟨_, _, rfl⟩ | ⟨_, _, rfl⟩
  · exact .inr rfl
  · exact .inl rfl
  · exact .inr ((s.accepted b).checkByte_sb.trans (s.accepted_sb b))

theorem State.parseByte_read_other (h : s.parseByte b = .ok t) {a : Nat} (ha : a ≠ s.parser.idx) :
    t.parser.sb.read a = s.parser.sb.read a := by
  rcases State.parseByte_sb h with hsb | hsb
  · rw [hsb]
  · rw [hsb, Memory.read_write_other b ha]

/-- All that `PUSH_BYTE` can do (R120, R121). -/
theorem execPushByte_next (h : execPushByte b s = .next t) :
    s.fault ≠ 0x00#8 ∧ t = s.returns (.status stRefused) ∨ s.fault = 0x00#8 ∧ s.parseByte b = .ok t := by
  by_cases hf : s.fault = 0x00#8
  · rw [execPushByte_live hf] at h
    exact .inr ⟨hf, outcomeOf_next.mp h⟩
  · rw [execPushByte, if_pos hf] at h
    cases h
    exact .inl ⟨hf, rfl⟩

/-- `PUSH_BYTE`, refused or not, writes none of the fields that no byte writes. -/
theorem execPushByte_keeps (h : execPushByte b s = .next t) : KeepsRest s t := by
  rcases execPushByte_next h with ⟨_, rfl⟩ | ⟨_, hp⟩
  · exact s.returns_keeps _
  · exact State.parseByte_keeps hp

end ScratchBuffer

/-! The output buffer. -/

section OutputBuffer

variable {s t u : State}

theorem State.unlessFaulted_out (r : HostResult) (h : t.out = s.out) : (s.unlessFaulted r t).out = s.out := by
  rcases s.unlessFaulted_cases r t with ⟨_, he⟩ | ⟨_, he⟩ <;> rw [he]
  · exact s.returns_out r
  · exact h

/-- A guarded operation with a check, neither of whose ends writes the output buffer. -/
theorem State.unlessFaulted_ite_out {p : Prop} [Decidable p] (r : HostResult) (ht : t.out = s.out)
    (hu : u.out = s.out) : (s.unlessFaulted r (if p then t else u)).out = s.out := by
  refine State.unlessFaulted_out r ?_
  split
  · exact ht
  · exact hu

theorem State.access_out (s : State) (available : Bool) (r : HostResult) : (s.access available r).out = s.out :=
  State.unlessFaulted_ite_out _ (s.returns_out r) (s.raiseFault_out faultRead)

theorem State.decodeSar_out (s : State) (pay : List Byte) : (s.decodeSar pay).out = s.out := by
  unfold State.decodeSar
  split
  · exact s.contentError_out
  · exact s.commit_out _ _

/-- A next state of the outcome has the output buffer of `s`. -/
def OutKept (s : State) (o : Host.Outcome State Fault Refusal) : Prop :=
  ∀ t, o = .next t → t.out = s.out

theorem OutKept.next (h : t.out = s.out) : OutKept s (.next t) := by
  rintro _ ⟨⟩
  exact h

theorem execFeed_outKept (bs : Option (List Byte)) (s : State) : OutKept s (execFeed bs s) := by
  unfold execFeed
  split
  · exact .next (s.returns_out _)
  · cases bs with
    | none => exact .next (s.raiseFault_out _)
    | some bs => exact fun t ht => (State.feedLoop_keeps (outcomeOf_next.mp ht)).out

theorem execSetSar_outKept (d : Option JsonDoc) (s : State) : OutKept s (execSetSar d s) := by
  cases d with
  | none => exact .next (State.unlessFaulted_out _ (s.raiseFault_out _))
  | some doc => exact .next (State.unlessFaulted_ite_out _ (s.building_out _) (s.raiseFault_out _))

/-- The output buffer is written by `SERIALIZE` and `RESET` at most (R64). -/
theorem exec_outKept (i : Instr) (s : State) (hser : i ≠ .serialize) (hres : i ≠ .reset) : OutKept s (exec i s) := by
  cases i with
  | pushByte b => exact fun t ht => (execPushByte_keeps ht).out
  | feed bs => exact execFeed_outKept bs s
  | setProps _ => exact .next (State.unlessFaulted_out _ (s.building_out _))
  | setCmd _ => exact .next (State.unlessFaulted_ite_out _ (s.raiseFault_out _) (s.building_out _))
  | setSar d => exact execSetSar_outKept d s
  | setStandby _ | setHeartbeat _ _ _ _ _ =>
    exact .next (State.unlessFaulted_ite_out _ (s.building_out _) (s.raiseFault_out _))
  | serialize => exact absurd rfl hser
  | getOut | getProps | getPriority | getAck | getVersion | getReserved | getCmd | getLen | getSar | getSarText
  | getStandby | getHeartbeat => exact .next (s.access_out _ _)
  | getStatus => exact .next (s.returns_out _)
  | reset => exact absurd rfl hres
  | setSarMode => exact .next (State.unlessFaulted_ite_out _ (s.takeFrame.decodeSar_out _) (s.returns_out _))
  | setStandbyState | heartbeat =>
    exact .next (State.unlessFaulted_ite_out _ (s.takeFrame.commit_out _ _) (s.returns_out _))

end OutputBuffer

/-- With no complete frame in `SB` and no whole operation on the port there is nothing to fetch. -/
theorem State.fetch_of_incomplete {s : State} (hp : s.pendingCommand = none)
    (hd : decodeHostOp s.port s.docs = .incomplete) : s.fetch = .wait := by
  rw [State.fetch, hp, hd]

/-! The statements about memory. -/

/-- Settles O39: a refused `PUSH_BYTE` writes its result alone, and a byte read stores itself at `idx` at most. -/
theorem pushByteFrame : Obligations.PushByteFrame := by
  unfold Obligations.PushByteFrame
  intro s t b h
  obtain ⟨hcfg, hport, hdocs, hout, hfault⟩ := execPushByte_keeps h
  refine ⟨fun a ha => ?_, hout, hfault, hcfg, hport, hdocs⟩
  rcases execPushByte_next h with ⟨_, rfl⟩ | ⟨_, hp⟩
  · rfl
  · exact State.parseByte_read_other hp ha

/-- Settles O51, by the case split over the instructions in `exec_outKept`. -/
theorem onlySerializeAndResetWriteOutput : Obligations.OnlySerializeAndResetWriteOutput := by
  unfold Obligations.OnlySerializeAndResetWriteOutput
  intro i s t hser hres h
  exact exec_outKept i s hser hres t h

/-- Settles O10: nothing is fetched, and a step that fetches nothing waits. -/
theorem nothingIssuedWaits : Obligations.NothingIssuedWaits := by
  unfold Obligations.NothingIssuedWaits
  intro s hw hp hd
  exact step_of_wait hw (State.fetch_of_incomplete hp hd)

end Sys2Proof.Machine

/-! The host port and the frame commands (R77, R78, R84 to R87): what each operand decoder reads, in both directions. -/

namespace Sys2Proof

open Sys2Proof.Machine

section OperandBytes

theorem le16_inj {v w : U16} : le16 v = le16 w ↔ v = w := by
  refine ⟨fun h => ?_, congrArg le16⟩
  rw [← rd16_le16 v [], ← rd16_le16 w [], h]

/-- Two bytes are the `LE16` of a word: reading a word drops nothing. -/
theorem exists_le16_append {bs : List Byte} (h : ¬bs.length < 2) : ∃ v r, bs = le16 v ++ r := by
  match bs, h with
  | a :: b :: r, _ => exact ⟨rd16 (a :: b :: r) 0, r, by rw [le16_rd16]; rfl⟩
  | [], h | [_], h => exact absurd (by simp) h

theorem exists_le32_append {bs : List Byte} (h : ¬bs.length < 4) : ∃ v r, bs = le32 v ++ r := by
  match bs, h with
  | a :: b :: c :: d :: r, _ => exact ⟨rd32 (a :: b :: c :: d :: r) 0, r, by rw [le32_rd32]; rfl⟩
  | [], h | [_], h | [_, _], h | [_, _, _], h => exact absurd (by simp) h

/-- Twelve bytes are the five fields of a heartbeat record (R204). -/
theorem exists_heartbeat_append {bs : List Byte} (h : ¬bs.length < 12) :
    ∃ e n v t m r, bs = le32 e ++ (le32 n ++ (le16 v ++ (t :: m :: r))) := by
  obtain ⟨e, bs, rfl⟩ := exists_le32_append (bs := bs) (by omega)
  simp only [List.length_append, le32_length] at h
  obtain ⟨n, bs, rfl⟩ := exists_le32_append (bs := bs) (by omega)
  simp only [List.length_append, le32_length] at h
  obtain ⟨v, bs, rfl⟩ := exists_le16_append (bs := bs) (by omega)
  simp only [List.length_append, le16_length] at h
  match bs, h with
  | t :: m :: r, _ => exact ⟨e, n, v, t, m, r, rfl⟩
  | [], h | [_], h => exact absurd (by simp) h

end OperandBytes

section OperandDecoders

variable (rest : List Byte) (docs : List JsonDoc)

theorem decodePushByte_cons (b : Byte) : decodePushByte (b :: rest) docs = .op (.pushByte b) rest docs := by
  simp [decodePushByte]

theorem decodeWord_le16 (mk : U16 → Instr) (v : U16) :
    decodeWord mk (le16 v ++ rest) docs = .op (mk v) rest docs := by
  rw [decodeWord, if_neg (by simp only [List.length_append, le16_length]; omega), rd16_le16]; rfl

/-- Present or not, a `FEED` operand begins with its length, and behind it stand as many bytes (R86). -/
theorem decodeFeed_le16 (v : U16) : decodeFeed (le16 v ++ rest) docs =
    if v = 0xFFFF#16 then .op (.feed none) rest docs
    else if rest.length < v.toNat then .incomplete
    else .op (.feed (some (rest.take v.toNat))) (rest.drop v.toNat) docs := by
  rw [decodeFeed, if_neg (by simp only [List.length_append, le16_length]; omega), rd16_le16]; rfl

theorem decodeFeed_some {bs : List Byte} (h : bs.length ≤ 65534) :
    decodeFeed (le16 (BitVec.ofNat 16 bs.length) ++ (bs ++ rest)) docs = .op (.feed (some bs)) rest docs := by
  have hlen : (BitVec.ofNat 16 bs.length).toNat = bs.length := by rw [BitVec.toNat_ofNat]; omega
  have hpresent : BitVec.ofNat 16 bs.length ≠ 0xFFFF#16 := fun heq => by
    rw [heq, BitVec.toNat_ofNat] at hlen; omega
  rw [decodeFeed_le16, if_neg hpresent, hlen, if_neg (by simp), List.take_left, List.drop_left]

theorem decodeSetSar_cons (p : Byte) : decodeSetSar (p :: rest) docs =
    if sarPresent p then
      match docs with
      | [] => .incomplete
      | d :: ds => .op (.setSar (some d)) rest ds
    else .op (.setSar none) rest docs := by
  rw [decodeSetSar.eq_def, if_neg (by simp)]; rfl

theorem decodeSetStandby_cons (b : Byte) :
    decodeSetStandby (b :: rest) docs = .op (.setStandby (b != 0x00#8)) rest docs := by
  simp [decodeSetStandby]

theorem decodeSetHeartbeat_fields (e n : U32) (v : U16) (t m : Byte) :
    decodeSetHeartbeat (le32 e ++ (le32 n ++ (le16 v ++ (t :: m :: rest)))) docs =
      .op (.setHeartbeat e n v t m) rest docs := by
  have hn := rd32_after (a := le32 e) (k := 4) rfl n (le16 v ++ (t :: m :: rest))
  have hv := rd16_after (a := le32 e ++ le32 n) (k := 8) rfl v (t :: m :: rest)
  rw [List.append_assoc] at hv
  have hlen : ¬(le32 e ++ (le32 n ++ (le16 v ++ (t :: m :: rest)))).length < 12 := by
    simp only [List.length_append, le32_length, le16_length, List.length_cons]; omega
  rw [decodeSetHeartbeat, if_neg hlen, rd32_le32, hn, hv]; rfl

theorem decodeCode_of_unlisted {code : Byte} (h : code ∉ hostOpCodes) :
    decodeCode code rest docs = .illegal code rest := by
  simp only [hostOpCodes, List.mem_cons, List.not_mem_nil, or_false, not_or] at h
  simp only [decodeCode, h, if_false]

end OperandDecoders

/-! What decodes stands on the port. -/

/-- The bytes `used` are a spelling of `i` on the port: its encoding, but for the operand byte of `SET_STANDBY` (R86)
and the presence byte of `SET_SAR` (log entry 8). -/
def Instr.SpelledBy (i : Instr) (used : List Byte) : Prop :=
  used.length = (encode i).length ∧ used.head? = (encode i).head? ∧
    (∀ f, i = .setStandby f → ∃ b, used = [0x13#8, b] ∧ (f = true ↔ b ≠ 0x00#8)) ∧
    ((∀ f, i ≠ .setStandby f) → (∀ d, i ≠ .setSar d) → used = encode i)

/-- An answer of the decoder that the port accounts for: a well-formed operation whose spelling and document are what
was taken, or not yet one; no illegal code. -/
def Decoded.Spelled (port : List Byte) (docs : List JsonDoc) : Decoded → Prop
  | .op i rest ds => i.wf = true ∧ i.isHostOp = true ∧ docs = handedOver i ++ ds ∧
      ∃ used, port = used ++ rest ∧ i.SpelledBy used
  | .incomplete => True
  | .illegal _ _ => False

section Spelled

variable (rest : List Byte) (docs : List JsonDoc)

/-- Every operation but two has its encoding as its only spelling, and hands nothing over. -/
theorem Decoded.spelled_encode {i : Instr} (hw : i.wf = true) (hh : i.isHostOp = true)
    (hstby : ∀ f, i ≠ .setStandby f) (hsar : ∀ d, i ≠ .setSar d) :
    (Decoded.op i rest docs).Spelled (encode i ++ rest) docs := by
  have hdocs : handedOver i = [] := by
    unfold handedOver
    split
    · exact absurd rfl (hsar _)
    · rfl
  exact ⟨hw, hh, by rw [hdocs]; rfl, encode i, rfl, rfl, rfl, fun f hf => absurd hf (hstby f), fun _ _ => rfl⟩

theorem decodePushByte_spelled : (decodePushByte rest docs).Spelled (0x01#8 :: rest) docs := by
  cases rest with
  | nil => trivial
  | cons b rest =>
    rw [decodePushByte_cons]
    exact Decoded.spelled_encode (i := .pushByte b) rest docs rfl rfl nofun nofun

/-- `SET_PROPS` and `SET_CMD`, each by its code and constructor. -/
theorem decodeWord_spelled {mk : U16 → Instr} {code : Byte}
    (h : ∀ v rest, (Decoded.op (mk v) rest docs).Spelled (code :: (le16 v ++ rest)) docs) :
    (decodeWord mk rest docs).Spelled (code :: rest) docs := by
  by_cases hlen : rest.length < 2
  · rw [decodeWord, if_pos hlen]; trivial
  · obtain ⟨v, rest, rfl⟩ := exists_le16_append hlen
    rw [decodeWord_le16]
    exact h v rest

theorem decodeFeed_spelled : (decodeFeed rest docs).Spelled (0x02#8 :: rest) docs := by
  by_cases hlen : rest.length < 2
  · rw [decodeFeed, if_pos hlen]; trivial
  obtain ⟨v, rest, rfl⟩ := exists_le16_append hlen
  rw [decodeFeed_le16]
  split
  next hv =>
    rw [hv]
    exact Decoded.spelled_encode (i := .feed none) rest docs rfl rfl nofun nofun
  next hv =>
    split
    next => trivial
    next hpresent =>
      have htake : (rest.take v.toNat).length = v.toNat := by rw [List.length_take]; omega
      have hbound : v.toNat ≤ 65534 := by
        have := v.isLt
        have : v.toNat ≠ 65535 := fun h => hv (BitVec.eq_of_toNat_eq h)
        omega
      have hport : 0x02#8 :: (le16 v ++ rest) = encode (.feed (some (rest.take v.toNat))) ++ rest.drop v.toNat := by
        rw [encode, htake, BitVec.ofNat_toNat, BitVec.setWidth_eq, List.cons_append, List.append_assoc,
          List.take_append_drop]
      rw [hport]
      exact Decoded.spelled_encode _ docs (by simp only [Instr.wf, htake, hbound, decide_true]) rfl nofun nofun

/-- The presence byte decides whether a document is taken; both spellings are two bytes long. -/
theorem decodeSetSar_spelled : (decodeSetSar rest docs).Spelled (0x12#8 :: rest) docs := by
  cases rest with
  | nil => trivial
  | cons p rest =>
    rw [decodeSetSar_cons]
    split
    · cases docs with
      | nil => trivial
      | cons d ds => exact ⟨rfl, rfl, rfl, [0x12#8, p], rfl, rfl, rfl, nofun, fun _ h => absurd rfl (h (some d))⟩
    · exact ⟨rfl, rfl, rfl, [0x12#8, p], rfl, rfl, rfl, nofun, fun _ h => absurd rfl (h none)⟩

theorem decodeSetStandby_spelled : (decodeSetStandby rest docs).Spelled (0x13#8 :: rest) docs := by
  cases rest with
  | nil => trivial
  | cons b rest =>
    rw [decodeSetStandby_cons]
    refine ⟨rfl, rfl, rfl, [0x13#8, b], rfl, rfl, rfl, fun f hf => ⟨b, rfl, ?_⟩, fun h => absurd rfl (h _)⟩
    rw [← Instr.setStandby.inj hf, bne_iff_ne]

theorem decodeSetHeartbeat_spelled : (decodeSetHeartbeat rest docs).Spelled (0x14#8 :: rest) docs := by
  by_cases hlen : rest.length < 12
  · rw [decodeSetHeartbeat, if_pos hlen]; trivial
  · obtain ⟨e, n, v, t, m, rest, rfl⟩ := exists_heartbeat_append hlen
    rw [decodeSetHeartbeat_fields]
    exact Decoded.spelled_encode (i := .setHeartbeat e n v t m) rest docs rfl rfl nofun nofun

/-- A code of R85's table leads to its operation's decoder, whose answer the port accounts for. -/
theorem decodeCode_spelled {code : Byte} (h : code ∈ hostOpCodes) :
    (decodeCode code rest docs).Spelled (code :: rest) docs := by
  simp only [hostOpCodes, List.mem_cons, List.not_mem_nil, or_false] at h
  obtain rfl | rfl | rfl | rfl | rfl | rfl | rfl | h := h
  · exact decodePushByte_spelled rest docs
  · exact decodeFeed_spelled rest docs
  · exact decodeWord_spelled rest docs fun v rest =>
      Decoded.spelled_encode (i := .setProps v) rest docs rfl rfl nofun nofun
  · exact decodeWord_spelled rest docs fun v rest =>
      Decoded.spelled_encode (i := .setCmd v) rest docs rfl rfl nofun nofun
  · exact decodeSetSar_spelled rest docs
  · exact decodeSetStandby_spelled rest docs
  · exact decodeSetHeartbeat_spelled rest docs
  · -- The fifteen operations without an operand.
    obtain rfl | rfl | rfl | rfl | rfl | rfl | rfl | rfl | rfl | rfl | rfl | rfl | rfl | rfl | rfl := h
    all_goals exact Decoded.spelled_encode rest docs rfl rfl nofun nofun

theorem decodeCode_eq_illegal {code : Byte} :
    decodeCode code rest docs = .illegal code rest ↔ code ∉ hostOpCodes := by
  refine ⟨fun h hmem => ?_, decodeCode_of_unlisted rest docs⟩
  have hs := decodeCode_spelled rest docs hmem
  rw [h] at hs
  exact hs

theorem decodeHostOp_op_spelled {port : List Byte} {ds : List JsonDoc} {i : Instr}
    (h : decodeHostOp port docs = .op i rest ds) : (Decoded.op i rest ds).Spelled port docs := by
  cases port with
  | nil => cases h
  | cons code port =>
    rw [decodeHostOp] at h
    by_cases hmem : code ∈ hostOpCodes
    · rw [← h]; exact decodeCode_spelled port docs hmem
    · rw [decodeCode_of_unlisted port docs hmem] at h; cases h

end Spelled

/-! The frame commands. -/

section FrameCommands

/-- A code that decodes is the command's own: its two bytes are the encoding. -/
theorem encode_of_decodeCommand {c : U16} {i : Instr} (h : decodeCommand c = some i) : encode i = le16 c := by
  unfold decodeCommand at h
  split at h
  next hc => cases h; rw [hc]; rfl
  next =>
    split at h
    next hc => cases h; rw [hc]; rfl
    next =>
      split at h
      next hc => cases h; rw [hc]; rfl
      next => cases h

end FrameCommands

/-! The statements about encodings. -/

/-- Settles O2: each operand decoder reads back what the encoder wrote; an operation without operands is its code. -/
theorem decodeEncodeHostOperation : Obligations.DecodeEncodeHostOperation := by
  unfold Obligations.DecodeEncodeHostOperation
  intro i rest docs hw hh
  cases i with
  | pushByte b => exact decodePushByte_cons rest docs b
  | feed bs =>
    cases bs with
    | none => exact decodeFeed_le16 rest docs 0xFFFF#16
    | some bs =>
      rw [encode, List.cons_append, List.append_assoc]
      exact decodeFeed_some rest docs (of_decide_eq_true hw)
  | setProps v => exact decodeWord_le16 rest docs .setProps v
  | setCmd c => exact decodeWord_le16 rest docs .setCmd c
  | setSar d =>
    cases d with
    | none => exact decodeSetSar_cons rest docs 0x00#8
    | some d => exact decodeSetSar_cons rest (d :: docs) 0x01#8
  | setStandby f => cases f <;> exact decodeSetStandby_cons rest docs _
  | setHeartbeat e n v t m => exact decodeSetHeartbeat_fields rest docs e n v t m
  | serialize | getOut | getProps | getPriority | getAck | getVersion | getReserved | getCmd | getLen | getSar
  | getSarText | getStandby | getHeartbeat | getStatus | reset => rfl
  | setSarMode | setStandbyState | heartbeat => cases hh

/-- Settles O4: every operand decoder answers with what stands on the port. -/
theorem decodedOperationStandsOnPort : Obligations.DecodedOperationStandsOnPort := by
  unfold Obligations.DecodedOperationStandsOnPort
  intro port rest docs ds i h
  exact decodeHostOp_op_spelled rest docs h

/-- Settles O3: `LE16` is injective, so a command's two bytes stand for its one code. -/
theorem decodeEncodeFrameCommand : Obligations.DecodeEncodeFrameCommand := by
  unfold Obligations.DecodeEncodeFrameCommand
  intro i c hi
  refine ⟨encode_of_decodeCommand, fun h => ?_⟩
  cases i with
  | setSarMode | setStandbyState | heartbeat => rw [← le16_inj.mp h]; rfl
  | _ => cases hi

/-- Settles O5: the decoder of a listed code answers with an operation or waits, and an unlisted code has none. -/
theorem unlistedCodeIsIllegal : Obligations.UnlistedCodeIsIllegal := by
  unfold Obligations.UnlistedCodeIsIllegal
  intro code rest docs
  exact decodeCode_eq_illegal rest docs

/-- Settles O1: five host operations and one frame command, by evaluation of the decoders. -/
theorem writtenWordsDecode : Obligations.WrittenWordsDecode := by
  unfold Obligations.WrittenWordsDecode
  decide

end Sys2Proof

/-! The bit fields of the properties (R74), by their arithmetic. -/

namespace Sys2Proof.Machine

section PropertyFields

/-- Fields that do not overlap are combined by addition. -/
theorem toNat_or_shiftLeft {x y : U16} {k : Nat} (hx : x.toNat < 2 ^ k) (hy : y.toNat * 2 ^ k < 2 ^ 16) :
    (x ||| y <<< k).toNat = x.toNat + y.toNat * 2 ^ k := by
  rw [BitVec.toNat_or, BitVec.toNat_shiftLeft, Nat.shiftLeft_eq, Nat.mod_eq_of_lt hy, Nat.or_comm, Nat.mul_comm,
    ← Nat.two_pow_add_eq_or_of_lt hx, Nat.add_comm]

/-- R74's formula. -/
theorem packProps_toNat (p : BitVec 4) (a : BitVec 2) (n : BitVec 8) (r : BitVec 2) :
    (packProps p a n r).toNat = p.toNat + a.toNat * 2 ^ 4 + n.toNat * 2 ^ 6 + r.toNat * 2 ^ 14 := by
  have hp : (p.setWidth 16).toNat = p.toNat := BitVec.toNat_setWidth_of_le (by decide)
  have ha : (a.setWidth 16).toNat = a.toNat := BitVec.toNat_setWidth_of_le (by decide)
  have hn : (n.setWidth 16).toNat = n.toNat := BitVec.toNat_setWidth_of_le (by decide)
  have hr : (r.setWidth 16).toNat = r.toNat := BitVec.toNat_setWidth_of_le (by decide)
  have := p.isLt; have := a.isLt; have := n.isLt; have := r.isLt
  have hpa := toNat_or_shiftLeft (x := p.setWidth 16) (y := a.setWidth 16) (k := 4) (by omega) (by omega)
  have hpan := toNat_or_shiftLeft (y := n.setWidth 16) (k := 6) (hpa.trans_lt (by omega)) (by omega)
  have hpanr := toNat_or_shiftLeft (y := r.setWidth 16) (k := 14) (hpan.trans_lt (by omega)) (by omega)
  rw [packProps, hpanr, hpan, hpa, hp, ha, hn, hr]

theorem propPriority_toNat (v : U16) : (propPriority v).toNat = v.toNat % 2 ^ 4 := by
  simp [propPriority]

theorem propAck_toNat (v : U16) : (propAck v).toNat = v.toNat / 2 ^ 4 % 2 ^ 2 := by
  simp [propAck, Nat.shiftRight_eq_div_pow]

theorem propVersion_toNat (v : U16) : (propVersion v).toNat = v.toNat / 2 ^ 6 % 2 ^ 8 := by
  simp [propVersion, Nat.shiftRight_eq_div_pow]

theorem propReserved_toNat (v : U16) : (propReserved v).toNat = v.toNat / 2 ^ 14 % 2 ^ 2 := by
  simp [propReserved, Nat.shiftRight_eq_div_pow]

end PropertyFields

/-- Settles O28: packing is R74's sum, and each field is its quotient and remainder. -/
theorem propertyFieldsPack : Obligations.PropertyFieldsPack := by
  unfold Obligations.PropertyFieldsPack
  refine ⟨fun v => BitVec.eq_of_toNat_eq ?_, fun p a n r => ?_⟩
  · rw [packProps_toNat, propPriority_toNat, propAck_toNat, propVersion_toNat, propReserved_toNat]
    have := v.isLt
    omega
  · have hsum := packProps_toNat p a n r
    have := p.isLt; have := a.isLt; have := n.isLt; have := r.isLt
    refine ⟨hsum, ?_, ?_, ?_, ?_⟩ <;> apply BitVec.eq_of_toNat_eq
    · rw [propPriority_toNat]; omega
    · rw [propAck_toNat]; omega
    · rw [propVersion_toNat]; omega
    · rw [propReserved_toNat]; omega

end Sys2Proof.Machine

/-! The checksum (R110, R115): its arithmetic, its laws, and the flip of one bit. -/

namespace Sys2Proof.Machine

section Checksum

theorem cksum16_toNat (bs : List Byte) : (cksum16 bs).toNat = (bs.map BitVec.toNat).sum % 65536 :=
  BitVec.toNat_ofNat _ _

theorem cksum16_cons (b : Byte) (bs : List Byte) : cksum16 (b :: bs) = b.setWidth 16 + cksum16 bs := by
  simp [cksum16, BitVec.ofNat_add]

theorem cksum16_replicate (n : Nat) (b : Byte) : cksum16 (List.replicate n b) = BitVec.ofNat 16 (n * b.toNat) := by
  simp [cksum16]

/-- Order-independence (R115 law 1). -/
theorem cksum16_perm {s t : List Byte} (h : s.Perm t) : cksum16 s = cksum16 t :=
  congrArg (BitVec.ofNat 16) (h.map BitVec.toNat).sum_eq

/-- One byte's value is below 2^16, so the sum determines a byte when the others are kept. -/
theorem cksum16_replace_inj {s t : List Byte} {a b : Byte} :
    cksum16 (s ++ a :: t) = cksum16 (s ++ b :: t) ↔ a = b := by
  refine ⟨fun h => ?_, fun h => h ▸ rfl⟩
  rw [cksum16_append, cksum16_append, cksum16_cons, cksum16_cons, add_right_inj, add_left_inj] at h
  have hn := congrArg BitVec.toNat h
  rw [BitVec.toNat_setWidth_of_le (by decide), BitVec.toNat_setWidth_of_le (by decide)] at hn
  exact BitVec.eq_of_toNat_eq hn

theorem xor_bit_ne {k : Nat} (hk : k < 8) (b : Byte) : b ^^^ (1#8 <<< k) ≠ b := by
  have hbit : ∀ k < 8, 1#8 <<< k ≠ 0#8 := by decide
  exact fun h => hbit k hk ((BitVec.xor_right_inj b).mp (h.trans BitVec.xor_zero.symm))

/-- Single-bit sensitivity (R115 law 3) at an index of the string. -/
theorem cksum16_modify_bit_ne {bs : List Byte} {j k : Nat} (hj : j < bs.length) (hk : k < 8) :
    cksum16 (bs.modify j (· ^^^ (1#8 <<< k))) ≠ cksum16 bs := by
  have hsplit : bs = bs.take j ++ bs[j] :: bs.drop (j + 1) := by simp
  rw [List.modify_eq_take_cons_drop hj]
  conv_rhs => rw [hsplit]
  exact fun h => xor_bit_ne hk bs[j] (cksum16_replace_inj.mp h)

end Checksum

/-- Settles O29: the fold is the sum of the mapped list, and a constant string sums to a product. -/
theorem checksumIsWrappingByteSum : Obligations.ChecksumIsWrappingByteSum := by
  unfold Obligations.ChecksumIsWrappingByteSum
  refine ⟨fun bs => ?_, rfl, ?_, ?_, ?_, by decide⟩
  · rw [cksum16_toNat, List.sum_eq_foldl, List.foldl_map]
  all_goals rw [cksum16_replicate]; decide

/-- Settles O30: the three laws, each a lemma above or of the model's own. -/
theorem checksumLaws : Obligations.ChecksumLaws := by
  unfold Obligations.ChecksumLaws
  exact ⟨fun _ _ => cksum16_perm, cksum16_append,
    fun _ _ b _ hk h => xor_bit_ne hk b (cksum16_replace_inj.mp h)⟩

end Sys2Proof.Machine

/-! A byte string fed from `idx = 0` up to the byte that rejects it (R120, R140). First `FEED` over bytes without
`DONE`, and the bytes of the string in `SB`. -/

namespace Sys2Proof.Machine

section Feeding

variable {s t u : State} {bs : List Byte} {d : Byte}

/-- The bytes `bs` take the block from `s` to `t`, none with `DONE`, and the OR of their status words is `d` (R140). -/
inductive Feeds (s : State) : List Byte → Byte → State → Prop where
  | nil : Feeds s [] 0x00#8 s
  | snoc {bs : List Byte} {b d : Byte} {t u : State} (h : Feeds s bs d t) (hp : t.parseByte b = .ok u)
      (hd : u.lastStatus &&& stDone = 0x00#8) : Feeds s (bs ++ [b]) (d ||| u.lastStatus) u

theorem Feeds.inv (h : Feeds s bs d t) (hs : BlockInv s) : BlockInv t := by
  induction h with
  | nil => exact hs
  | snoc _ hp _ ih => exact ih.parseByte hp

theorem Feeds.cfg_eq (h : Feeds s bs d t) : t.cfg = s.cfg := by
  induction h with
  | nil => rfl
  | snoc _ hp _ ih => exact (State.parseByte_keeps hp).cfg.trans ih

/-- The loop of R140 runs such bytes and goes on with what follows them. -/
theorem Feeds.feedLoop (h : Feeds s bs d t) (n : Nat) (diag : Byte) (cs : List Byte) :
    s.feedLoop n diag (bs ++ cs) = t.feedLoop (n + bs.length) (diag ||| d) cs := by
  induction h generalizing cs with
  | nil => simp
  | @snoc bs b d t u _ hp hd ih =>
    rw [List.append_assoc, ih, List.singleton_append, State.feedLoop_cons _ _ _ hp, if_neg (not_not_intro hd),
      List.length_append, BitVec.or_assoc]
    rfl

/-- `FEED` of a string none of whose bytes ends in `DONE` consumes all of it (R140, R141). -/
theorem Feeds.exec_feed (h : Feeds s bs d t) (hf : s.fault = 0x00#8) :
    exec (.feed (some bs)) s = .next (t.returns (.feed false bs.length [] d)) := by
  have hrun : s.feedLoop 0 0x00#8 bs = .ok (t.returns (.feed false bs.length [] d)) := by
    have hl := h.feedLoop 0 0x00#8 []
    rwa [List.append_nil, State.feedLoop_nil, Nat.zero_add, BitVec.zero_or] at hl
  have hexec : exec (.feed (some bs)) s = execFeed (some bs) s := rfl
  rw [hexec, execFeed, if_neg (not_not_intro hf)]
  exact congrArg outcomeOf hrun

end Feeding

section Holding

variable {f : List Byte} {n : Nat} {p : ParserRegs}

/-- The parser is `n` bytes into the byte string `f`: `SB` below `idx` holds them (R22, R23). -/
structure Holding (f : List Byte) (n : Nat) (p : ParserRegs) : Prop where
  idx : p.idx = n
  sb : ∀ i, i < n → p.sb.read i = byteAt f i

theorem Holding.stored (h : Holding f n p) (hw : p.sb.wf = true) :
    Holding f (n + 1) (p.stored (byteAt f n)) := by
  obtain ⟨rfl, hsb⟩ := h
  refine ⟨rfl, fun i hi => ?_⟩
  by_cases hlast : i = p.idx
  · subst hlast
    exact Memory.read_write_same p.idx _ hw
  · exact (Memory.read_write_other _ hlast).trans (hsb i (by omega))

theorem Holding.capture (h : Holding f n p) : Holding f n p.capture :=
  ⟨p.capture_idx.trans h.idx, by rw [p.capture_sb]; exact h.sb⟩

/-- A field that `SB` holds is the string's. -/
theorem Holding.rd16_eq (h : Holding f n p) {o : Nat} (ho : o + 2 ≤ n) : p.sb.rd16 o = rd16 f o :=
  rd16_congr (h.sb o (by omega)) (h.sb (o + 1) (by omega))

theorem Memory.readRange_eq_take_drop {m : Memory} {a k : Nat} (h : ∀ i, a ≤ i → i < a + k → m.read i = byteAt f i)
    (hl : a + k ≤ f.length) : m.readRange a k = (f.drop a).take k := by
  induction k generalizing a with
  | zero => rfl
  | succ k ih =>
    have ha : a < f.length := by omega
    have hhead : m.read a = f[a] := by
      rw [h a le_rfl (by omega), byteAt, List.getD_eq_getElem]
    rw [Memory.readRange, ih (fun i hi hj => h i (by omega) (by omega)) (by omega),
      List.drop_eq_getElem_cons ha, List.take_succ_cons, hhead]

/-- A range that `SB` holds is the string's. -/
theorem Holding.readRange_eq (h : Holding f n p) {a k : Nat} (hn : a + k ≤ n) (hl : n ≤ f.length) :
    p.sb.readRange a k = (f.drop a).take k :=
  Memory.readRange_eq_take_drop (fun i _ hi => h.sb i (by omega)) (by omega)

end Holding

/-- No byte of a frame in progress lacks an address (R146): the length rule bounds the frame by `BUF_CAP`. -/
theorem BlockInv.idx_lt_bufCap {s : State} (h : BlockInv s) : s.parser.idx < s.cfg.bufCap := by
  obtain ⟨_, hhb, hsar, hcap⟩ := s.cfg.wf_iff.mp h.cfgWf
  by_cases hi : s.parser.idx < 12
  · omega
  · have hlen := payloadLength_of_lenBad (h.parser.cmdKnown (by omega)) (h.parser.lenGood (by omega))
    have hfits := h.cfgFits
    simp only [Config.fits, Bool.and_eq_true, decide_eq_true_eq] at hfits
    have hend := h.parser.idxBelowEnd
    cases hv : variantOf s.parser.capCmd <;> rw [hv] at hlen <;> simp only [PayloadLength] at hlen <;> omega

/-! The checks of a byte of the string, by what the string holds. -/

section Captured

variable {f : List Byte} {n : Nat} {s v : State}

/-- Byte `n - 1` of `f` is stored and its field captured, and its checks are still to come. -/
structure Captured (f : List Byte) (n : Nat) (v : State) : Prop where
  inv : CapturedInv v.cfg v.parser
  holding : Holding f n v.parser
  cleared : v.msg.state = .empty
  inString : n ≤ f.length

theorem BlockInv.accepted (h : BlockInv s) (hh : Holding f n s.parser) (h2 : 2 ≤ n) (hn : n < f.length) :
    Captured f (n + 1) (s.accepted (byteAt f n)) where
  inv := by
    rw [State.accepted_parser]
    exact h.parser.capture_stored h.idx_lt_bufCap fun hi => absurd hi (by have := hh.idx; omega)
  holding := (hh.stored h.parser.sbWf).capture
  cleared := rfl
  inString := hn

theorem Captured.capCmd_eq (h : Captured f n v) (hn : 10 ≤ n) : v.parser.capCmd = rd16 f 8 := by
  rw [h.inv.cmdCaptured (by rw [h.holding.idx]; omega), h.holding.rd16_eq (by omega)]

theorem Captured.capLen_eq (h : Captured f n v) (hn : 12 ≤ n) : v.parser.capLen = rd16 f 10 := by
  rw [h.inv.lenCaptured (by rw [h.holding.idx]; omega), h.holding.rd16_eq (by omega)]

theorem Captured.headerStatus_eq (h : Captured f n v) (hn : 12 ≤ n) :
    v.headerStatus = headerStatus v.cfg (rd16 f 8) (rd16 f 10) (rd16 f 2) ((f.drop 6).take 6) := by
  rw [State.headerStatus, h.capCmd_eq (by omega), h.capLen_eq hn,
    h.inv.hckCaptured (by rw [h.holding.idx]; omega), h.holding.rd16_eq (by omega),
    h.holding.readRange_eq (by omega) h.inString]

/-- The checks that the first `n` bytes of `f` pass: the signature (R123), the command code (R128) and the header (R129,
R130), with the frame not yet at its end (R131). -/
structure Accepts (cfg : Config) (f : List Byte) (n : Nat) : Prop where
  signature : ∀ i, i < 2 → i < n → byteAt f i = sig
  command : 10 ≤ n → known (rd16 f 8) = true
  header : 12 ≤ n → headerStatus cfg (rd16 f 8) (rd16 f 10) (rd16 f 2) ((f.drop 6).take 6) = 0x00#8
  unfinished : 12 ≤ n → n < 12 + (rd16 f 10).toNat

theorem Accepts.of_succ {cfg : Config} (h : Accepts cfg f (n + 1)) : Accepts cfg f n where
  signature i hi hn := h.signature i hi (by omega)
  command hn := h.command (by omega)
  header hn := h.header (by omega)
  unfinished hn := by have := h.unfinished (by omega); omega

theorem Captured.checkByte_accepts (h : Captured f n v) (ha : Accepts v.cfg f n) : v.checkByte = v.finish 0x00#8 := by
  rw [State.checkByte, h.holding.idx, if_neg, if_neg, if_neg]
  · rintro ⟨hn, hend⟩
    have := ha.unfinished hn
    rw [h.capLen_eq hn] at hend
    omega
  · rintro ⟨hn, hst⟩
    rw [h.headerStatus_eq (by omega)] at hst
    exact hst (ha.header (by omega))
  · rintro ⟨hn, hk⟩
    rw [h.capCmd_eq (by omega), ha.command (by omega)] at hk
    cases hk

/-- R128: the byte at offset 9 rejects a command code outside `KNOWN`. -/
theorem Captured.checkByte_command (h : Captured f 10 v) (hk : known (rd16 f 8) = false) :
    v.checkByte = v.resync stCmd := by
  rw [State.checkByte, if_pos ⟨h.holding.idx, (h.capCmd_eq le_rfl).symm ▸ hk⟩]

/-- R129, R130: the byte at offset 11 rejects a header whose status word is not clear. -/
theorem Captured.checkByte_header (h : Captured f 12 v) {st : Byte}
    (hst : headerStatus v.cfg (rd16 f 8) (rd16 f 10) (rd16 f 2) ((f.drop 6).take 6) = st) (hne : st ≠ 0x00#8) :
    v.checkByte = v.resync st := by
  have hv : v.headerStatus = st := (h.headerStatus_eq le_rfl).trans hst
  rw [State.checkByte, h.holding.idx, if_neg (fun hc => absurd hc.1 (by decide)), hv, if_pos ⟨rfl, hne⟩]

/-- R132: the last payload byte rejects a payload whose checksum is not the captured one. -/
theorem Captured.checkByte_payload (h : Captured f n v) (hn : 12 < n) (hend : n = 12 + (rd16 f 10).toNat)
    (hck : cksum16 ((f.drop 12).take (rd16 f 10).toNat) ≠ rd16 f 4) : v.checkByte = v.resync stPck := by
  have hidx := h.holding.idx
  have hlen := h.capLen_eq (by omega)
  have hpay : v.payload = (f.drop 12).take (rd16 f 10).toNat := by
    rw [State.payload, hlen, h.holding.readRange_eq (by omega) h.inString]
  have hpck : v.parser.capPck = rd16 f 4 := by
    rw [h.inv.pckCaptured (by omega), h.holding.rd16_eq (by omega)]
  rw [State.checkByte, if_neg (by omega), if_neg (by omega), if_pos ⟨by omega, by rw [hlen]; omega⟩,
    State.completeFrame, hpay, hpck, if_pos hck]

end Captured

/-! The string read up to byte `n`, and rejected on it. -/

section Reading

variable {f : List Byte} {n : Nat} {s t u : State} {d : Byte}

theorem take_succ_eq_append_byteAt (hn : n < f.length) : f.take (n + 1) = f.take n ++ [byteAt f n] := by
  rw [byteAt, List.getD_eq_getElem _ _ hn, List.take_append_getElem]

/-- The first `n` bytes of `f` are fed with no error, and stand in `SB`. -/
structure Reading (s : State) (f : List Byte) (n : Nat) (t : State) : Prop where
  feeds : Feeds s (f.take n) 0x00#8 t
  inv : BlockInv t
  holding : Holding f n t.parser

/-- One more byte that ends without an error. -/
theorem Reading.snoc (h : Reading s f n t) (hn : n < f.length) (hp : t.parseByte (byteAt f n) = .ok u)
    (hst : u.lastStatus = 0x00#8) (hh : Holding f (n + 1) u.parser) : Reading s f (n + 1) u where
  feeds := by
    have hf := h.feeds.snoc hp (by rw [hst]; decide)
    rwa [hst, ← take_succ_eq_append_byteAt hn] at hf
  inv := h.inv.parseByte hp
  holding := hh

/-- What passes its checks is read (R123 to R131). -/
theorem Accepts.exists_reading (ha : Accepts s.cfg f n) (hs : BlockInv s) (hi : s.parser.idx = 0)
    (hn : n ≤ f.length) : ∃ t, Reading s f n t := by
  induction n with
  | zero => exact ⟨s, .nil, hs, hi, fun i h => absurd h (Nat.not_lt_zero i)⟩
  | succ n ih =>
    obtain ⟨t, ht⟩ := ih ha.of_succ (by omega)
    have hidx := ht.holding.idx
    have hcap := ht.inv.idx_lt_bufCap
    by_cases h2 : n < 2
    · have hsig : byteAt f n = sig := ha.signature n h2 (by omega)
      have hp := State.parseByte_signature (by rw [hidx]; exact h2) hcap
      have hstored := ht.holding.stored ht.inv.parser.sbWf
      rw [← hsig] at hp
      exact ⟨_, ht.snoc hn hp rfl hstored⟩
    · have hv := ht.inv.accepted ht.holding (by omega) hn
      have hp := State.parseByte_accepted (byteAt f n) (by omega) hcap
      rw [hv.checkByte_accepts (by rw [State.accepted_cfg, ht.feeds.cfg_eq]; exact ha)] at hp
      exact ⟨_, ht.snoc hn hp rfl hv.holding⟩

/-- The byte after those read, when its checks end in an error: the frame is dropped and no message stands (R232). -/
theorem Reading.rejected (h : Reading s f n t) (h2 : 2 ≤ n) (hn : n < f.length) {st : Byte}
    (hc : ∀ v, Captured f (n + 1) v → v.cfg = s.cfg → v.checkByte = v.resync st)
    (hst : st &&& stDone = 0x00#8) :
    ∃ u, Feeds s (f.take (n + 1)) st u ∧ u.lastStatus = st ∧ u.parser.idx = 0 ∧ u.msg.state = .empty := by
  have hv := h.inv.accepted h.holding h2 hn
  have hp := State.parseByte_accepted (byteAt f n) (by rw [h.holding.idx]; exact h2) h.inv.idx_lt_bufCap
  rw [hc _ hv h.feeds.cfg_eq] at hp
  have hf := h.feeds.snoc hp hst
  rw [State.resync_lastStatus, BitVec.zero_or, ← take_succ_eq_append_byteAt hn] at hf
  exact ⟨_, hf, rfl, rfl, hv.cleared⟩

/-- A byte in the signature scan returns no `DONE` and leaves no message (R123). -/
theorem BlockInv.parseByte_scan (h : BlockInv s) (hi : s.parser.idx < 2) (b : Byte) :
    ∃ t, s.parseByte b = .ok t ∧ t.lastStatus &&& stDone = 0x00#8 ∧ t.parser.idx ≤ s.parser.idx + 1 ∧
      t.msg.state = .empty := by
  by_cases hb : b = sig
  · exact ⟨_, hb ▸ State.parseByte_signature hi h.idx_lt_bufCap, BitVec.zero_and, le_rfl, rfl⟩
  · exact ⟨_, State.parseByte_noise hi hb, (by decide : stSig &&& stDone = 0x00#8), Nat.zero_le _, rfl⟩

end Reading

end Sys2Proof.Machine

/-! A frame cut after its two checksums: a flip past the cut changes the bytes that a checksum covers and neither
checksum (R111, R112, R115). -/

namespace Sys2Proof.Machine

section CutFrame

variable {cfg : Config} {hck pck p c len : U16} {rest bs : List Byte} {j k o : Nat} {g : Byte → Byte}

/-- The signature and the two checksum fields of a frame (R70). -/
def frameStart (hck pck : U16) : List Byte :=
  [sig, sig] ++ le16 hck ++ le16 pck

theorem modify_append_right (as bs : List Byte) (j : Nat) (g : Byte → Byte) :
    (as ++ bs).modify (as.length + j) g = as ++ bs.modify j g :=
  List.modifyTailIdx_add _ j as bs

/-- The first 12 bytes of a frame with a header byte changed. -/
theorem frameBytes_header_modify (j : Nat) (pay : List Byte) :
    ((frameBytes p c len pay).take 12).modify (6 + j) g =
      frameStart (cksum16 (headerBytes p c len)) (cksum16 pay) ++ (headerBytes p c len).modify j g :=
  modify_append_right (frameStart _ _) (headerBytes p c len) j g

/-- A frame with a payload byte changed. -/
theorem frameBytes_payload_modify (j : Nat) (pay : List Byte) :
    (frameBytes p c len pay).modify (12 + j) g =
      frameStart (cksum16 (headerBytes p c len)) (cksum16 pay) ++ (headerBytes p c len ++ pay.modify j g) := by
  rw [← List.append_assoc]
  exact modify_append_right (frameStart _ _ ++ headerBytes p c len) pay j g

theorem byteAt_frameStart {i : Nat} (hi : i < 2) : byteAt (frameStart hck pck ++ rest) i = sig := by
  match i, hi with
  | 0, _ | 1, _ => rfl

theorem rd16_frameStart_hck : rd16 (frameStart hck pck ++ rest) 2 = hck :=
  join16 hck

theorem rd16_frameStart_pck : rd16 (frameStart hck pck ++ rest) 4 = pck :=
  join16 pck

theorem rd16_frameStart_rest (o : Nat) : rd16 (frameStart hck pck ++ rest) (6 + o) = rd16 rest o :=
  (rd16_drop (frameStart hck pck ++ rest) 6 o).symm

theorem headerBytes_length (p c len : U16) : (headerBytes p c len).length = 6 := rfl

theorem rd16_headerBytes_cmd : rd16 (headerBytes p c len ++ rest) 2 = c :=
  join16 c

theorem rd16_headerBytes_len : rd16 (headerBytes p c len ++ rest) 4 = len :=
  join16 len

theorem byteAt_modify_ne {i : Nat} (h : j ≠ i) : byteAt (bs.modify j g) i = byteAt bs i := by
  simp [byteAt, h]

/-- A change outside a field leaves it. -/
theorem rd16_modify_ne (h₀ : j ≠ o) (h₁ : j ≠ o + 1) : rd16 (bs.modify j g) o = rd16 bs o :=
  rd16_congr (byteAt_modify_ne h₀) (byteAt_modify_ne h₁)

/-- The low bytes of the codes in `KNOWN` differ in more than one bit (R116). -/
theorem knownLow_flip :
    ∀ b ∈ [0x03#8, 0x05#8, 0x08#8], ∀ k < 8, b ^^^ (1#8 <<< k) ∉ [0x03#8, 0x05#8, 0x08#8] := by
  decide

theorem rd16_eq_iff {a b : Byte} : rd16 [a, b] 0 = c ↔ [a, b] = le16 c := by
  rw [← le16_inj, le16_rd16]

/-- `KNOWN` by the two bytes of a code: the high bytes agree. -/
theorem known_rd16 {a b : Byte} : known (rd16 [a, b] 0) = true ↔ a ∈ [0x03#8, 0x05#8, 0x08#8] ∧ b = 0xFF#8 := by
  have hsar : le16 0xFF03#16 = [0x03#8, 0xFF#8] := rfl
  have hstby : le16 0xFF05#16 = [0x05#8, 0xFF#8] := rfl
  have hhb : le16 0xFF08#16 = [0x08#8, 0xFF#8] := rfl
  simp only [← mem_known, List.mem_cons, List.not_mem_nil, or_false, rd16_eq_iff, hsar, hstby, hhb, List.cons.injEq,
    and_true, or_and_right]

/-- A flip in the two bytes of the command code, which the header holds at 2 and 3, leaves `KNOWN` (R116). -/
theorem known_header_flip (hc : known c = true) (hj : j = 2 ∨ j = 3) (hk : k < 8) :
    known (rd16 ((headerBytes p c len).modify j (· ^^^ (1#8 <<< k))) 2) = false := by
  obtain ⟨hlow, hhigh⟩ := known_rd16.mp ((rd16_le16 c []).symm ▸ hc : known (rd16 (le16 c) 0) = true)
  rw [Bool.eq_false_iff]
  obtain rfl | rfl := hj
  · exact fun h => knownLow_flip _ hlow k hk (known_rd16.mp h).1
  · exact fun h => xor_bit_ne hk _ ((known_rd16.mp h).2.trans hhigh.symm)

theorem lenBad_eq_true : lenBad cfg c len = true ↔ LengthBroken cfg c len := by
  unfold lenBad LengthBroken
  by_cases hstby : c = 0xFF05#16
  · simp [hstby, variantOf, cmdSar, cmdStby]
  · by_cases hhb : c = 0xFF08#16
    · simp [hhb, variantOf, cmdSar, cmdStby, cmdHb]
    · by_cases hsar : c = 0xFF03#16
      · simp [hsar, variantOf, cmdSar]
      · simp [hstby, hhb, hsar, variantOf, cmdSar, cmdStby, cmdHb]

/-- The header status never holds `DONE`. -/
theorem headerStatus_and_done (header : List Byte) : headerStatus cfg c len hck header &&& stDone = 0x00#8 := by
  have hall : ∀ st ∈ [0x00#8, 0x08#8, 0x10#8, 0x18#8], st &&& stDone = 0x00#8 := by decide
  exact hall _ (headerStatus_cases cfg c len hck header)

/-- A header checksum that does not match sets `E_HCK`, alone or beside `E_LEN` (R130). -/
theorem headerStatus_and_hck (cfg : Config) (c len : U16) {header : List Byte} (h : cksum16 header ≠ hck) :
    headerStatus cfg c len hck header &&& stHck ≠ 0x00#8 := by
  unfold headerStatus
  rw [if_pos h]
  split <;> decide

end CutFrame

/-! The three errors. -/

section Rejection

variable {s : State} {hck pck p c len : U16} {header rest : List Byte}

/-- A mask set in one word is met by its OR with any other. -/
theorem or_and_self_ne_zero (m d : Byte) (hm : m ≠ 0x00#8) : (m ||| d) &&& m ≠ 0x00#8 := by
  have habs : (m ||| d) &&& m = m := by
    ext i hi
    simpa using Or.inl
  rwa [habs]

theorem cutHeader_length (h : header.length = 6) : (frameStart hck pck ++ header).length = 12 := by
  rw [List.length_append, h]
  rfl

/-- The first 6 bytes after the cut are read as the header (R125 to R129). -/
theorem Accepts.of_cut {cfg : Config} {n : Nat} (hk : 10 ≤ n → known (rd16 rest 2) = true)
    (hst : 12 ≤ n → headerStatus cfg (rd16 rest 2) (rd16 rest 4) hck (rest.take 6) = 0x00#8)
    (hn : 12 ≤ n → n < 12 + (rd16 rest 4).toNat) : Accepts cfg (frameStart hck pck ++ rest) n where
  signature _ hi _ := byteAt_frameStart hi
  command h10 := by rw [rd16_frameStart_rest 2]; exact hk h10
  header h12 := by
    rw [rd16_frameStart_rest 2, rd16_frameStart_rest 4, rd16_frameStart_hck]
    exact hst h12
  unfinished h12 := by rw [rd16_frameStart_rest 4]; exact hn h12

/-- Twelve bytes whose header does not match its checksum end in `E_HCK` on the last one (R129, R130). -/
theorem feeds_header_error (hs : BlockInv s) (hi : s.parser.idx = 0) (hl : header.length = 6)
    (hk : known (rd16 header 2) = true) (hne : cksum16 header ≠ hck) :
    ∃ u d, Feeds s (frameStart hck pck ++ header) d u ∧ d &&& stHck ≠ 0x00#8 ∧ u.msg.state = .empty := by
  have hlen := cutHeader_length (hck := hck) (pck := pck) hl
  have hbit := headerStatus_and_hck s.cfg (rd16 header 2) (rd16 header 4) hne
  have ha : Accepts s.cfg (frameStart hck pck ++ header) 11 := .of_cut (fun _ => hk) (by omega) (by omega)
  obtain ⟨t, ht⟩ := ha.exists_reading hs hi (by omega)
  have hcheck : ∀ v, Captured (frameStart hck pck ++ header) 12 v → v.cfg = s.cfg →
      v.checkByte = v.resync (headerStatus s.cfg (rd16 header 2) (rd16 header 4) hck header) := by
    refine fun v hv hcfg => hv.checkByte_header ?_ fun h0 => hbit (by rw [h0, BitVec.zero_and])
    rw [rd16_frameStart_rest 2, rd16_frameStart_rest 4, rd16_frameStart_hck, hcfg]
    exact congrArg (headerStatus _ _ _ _) (List.take_of_length_le hl.le)
  obtain ⟨u, hu, _, _, hmsg⟩ := ht.rejected (by omega) (by omega) hcheck (headerStatus_and_done header)
  rw [List.take_of_length_le hlen.le] at hu
  exact ⟨u, _, hu, hbit, hmsg⟩

/-- Twelve bytes with an unknown command code end in `E_CMD` on the tenth (R128), and the signature scan reads the last
two. -/
theorem feeds_command_error (hs : BlockInv s) (hi : s.parser.idx = 0) (hl : header.length = 6)
    (hk : known (rd16 header 2) = false) :
    ∃ u d, Feeds s (frameStart hck pck ++ header) d u ∧ d &&& stCmd ≠ 0x00#8 ∧ u.msg.state = .empty := by
  have hlen := cutHeader_length (hck := hck) (pck := pck) hl
  have ha : Accepts s.cfg (frameStart hck pck ++ header) 9 := .of_cut (by omega) (by omega) (by omega)
  obtain ⟨t, ht⟩ := ha.exists_reading hs hi (by omega)
  obtain ⟨u, hu, _, hidx, _⟩ := ht.rejected (st := stCmd) (by omega) (by omega)
    (fun v hv _ => hv.checkByte_command (by rw [rd16_frameStart_rest 2]; exact hk)) (by decide)
  obtain ⟨v, hv, hvd, hvi, _⟩ := (hu.inv hs).parseByte_scan (by omega) (byteAt (frameStart hck pck ++ header) 10)
  have hfv := hu.snoc hv hvd
  obtain ⟨w, hw, hwd, _, hmsg⟩ := (hfv.inv hs).parseByte_scan (by omega) (byteAt (frameStart hck pck ++ header) 11)
  have hfw := hfv.snoc hw hwd
  rw [← take_succ_eq_append_byteAt (by omega), ← take_succ_eq_append_byteAt (by omega),
    List.take_of_length_le hlen.le, BitVec.or_assoc] at hfw
  exact ⟨w, _, hfw, or_and_self_ne_zero stCmd _ (by decide), hmsg⟩

/-- A frame with a good header whose payload does not match its checksum ends in `E_PCK` on the last byte (R132). -/
theorem feeds_payload_error {pay : List Byte} (hs : BlockInv s) (hi : s.parser.idx = 0) (hk : known c = true)
    (hlb : ¬LengthBroken s.cfg c len) (hpay : pay.length = len.toNat) (hpos : 0 < len.toNat)
    (hne : cksum16 pay ≠ pck) :
    ∃ u, Feeds s (frameStart (cksum16 (headerBytes p c len)) pck ++ (headerBytes p c len ++ pay)) stPck u ∧
      u.lastStatus = stPck ∧ u.parser.idx = 0 ∧ u.msg.state = .empty := by
  obtain ⟨f, hf⟩ : ∃ f, f = frameStart (cksum16 (headerBytes p c len)) pck ++ (headerBytes p c len ++ pay) := ⟨_, rfl⟩
  have hlen : f.length = 12 + len.toNat := by
    rw [hf, ← List.append_assoc, List.length_append, cutHeader_length (headerBytes_length p c len), hpay]
  have hlenField : rd16 f 10 = len := by rw [hf, rd16_frameStart_rest 4, rd16_headerBytes_len]
  obtain ⟨n, hn⟩ : ∃ n, n + 1 = 12 + len.toNat := ⟨11 + len.toNat, by omega⟩
  have ha : Accepts s.cfg f n := by
    rw [hf]
    refine .of_cut (fun _ => rd16_headerBytes_cmd.symm ▸ hk) (fun _ => ?_) fun _ => ?_
    · rw [rd16_headerBytes_cmd, rd16_headerBytes_len]
      exact headerStatus_eq_zero.mpr ⟨by rwa [← lenBad_eq_true, Bool.not_eq_true] at hlb, rfl⟩
    · rw [rd16_headerBytes_len]
      omega
  obtain ⟨t, ht⟩ := ha.exists_reading hs hi (by omega)
  have hpayField : (f.drop 12).take len.toNat = pay := by
    rw [hf, ← hpay]
    exact List.take_length
  have hcheck : ∀ v, Captured f (n + 1) v → v.cfg = s.cfg → v.checkByte = v.resync stPck := by
    refine fun v hv _ => hv.checkByte_payload (by omega) (by rw [hlenField, hn]) ?_
    rwa [hlenField, hpayField, hf, rd16_frameStart_pck]
  obtain ⟨u, hu, hst, hidx, hmsg⟩ := ht.rejected (by omega) (by omega) hcheck (by decide)
  rw [List.take_of_length_le (by omega)] at hu
  exact ⟨u, hf ▸ hu, hst, hidx, hmsg⟩

end Rejection

/-! The statements about corrupted frames. -/

/-- Settles O54: a flip in the command code leaves `KNOWN`, and any other flip of the header breaks its checksum. -/
theorem headerBitFlipIsRejected : Obligations.HeaderBitFlipIsRejected := by
  unfold Obligations.HeaderBitFlipIsRejected
  intro s p c len pay j k hs hf hi hc hj hj12 hk
  obtain ⟨i, rfl⟩ := Nat.exists_eq_add_of_le hj
  have hlen : ((headerBytes p c len).modify i (· ^^^ (1#8 <<< k))).length = 6 := List.length_modify _ _ _
  have herror : ∃ u d,
      Feeds s (((frameBytes p c len pay).take 12).modify (6 + i) (· ^^^ (1#8 <<< k))) d u ∧
        d &&& (if 6 + i = 8 ∨ 6 + i = 9 then stCmd else stHck) ≠ 0x00#8 ∧ u.msg.state = .empty := by
    rw [frameBytes_header_modify]
    split
    · next hcmd => exact feeds_command_error hs hi hlen (known_header_flip (mem_known.mp hc) (by omega) hk)
    · next hcmd =>
      have hcode : rd16 ((headerBytes p c len).modify i (· ^^^ (1#8 <<< k))) 2 = c :=
        (rd16_modify_ne (by omega) (by omega)).trans (rd16_headerBytes_cmd (rest := []))
      exact feeds_header_error hs hi hlen (hcode.symm ▸ mem_known.mp hc)
        (cksum16_modify_bit_ne (by rw [headerBytes_length]; omega) hk)
  obtain ⟨u, d, hu, hbit, hmsg⟩ := herror
  refine ⟨_, d, hu.exec_feed hf, ?_, hbit, hmsg⟩
  rw [frameBytes_header_modify, cutHeader_length hlen, State.returns_ret]

/-- Settles O55: the header passes its checks as that of the whole frame does, and the flip breaks the payload's
checksum. -/
theorem payloadBitFlipIsRejected : Obligations.PayloadBitFlipIsRejected := by
  unfold Obligations.PayloadBitFlipIsRejected
  intro s p c pay j k hs hf hi hc hmax hlb hj hk
  have hlen : (BitVec.ofNat 16 pay.length).toNat = pay.length := by
    rw [BitVec.toNat_ofNat, Nat.mod_eq_of_lt (by omega)]
  obtain ⟨u, hu, hst, hidx, hmsg⟩ := feeds_payload_error (p := p) hs hi (mem_known.mp hc) hlb
    ((List.length_modify (· ^^^ (1#8 <<< k)) pay j).trans hlen.symm) (by omega) (cksum16_modify_bit_ne hj hk)
  rw [← frameBytes_payload_modify] at hu
  refine ⟨_, hu.exec_feed hf, ?_, hst, hmsg, hidx⟩
  rw [List.length_modify, frameBytes_length]
  rfl

end Sys2Proof.Machine

/-! `PUSH_BYTE` (R120 to R137), byte by byte: the state before the checks, and each end of the checks. -/

namespace Sys2Proof.Machine

section PushByte

variable {s t u : State} {b : Byte}

theorem exec_pushByte (b : Byte) (s : State) : exec (.pushByte b) s = execPushByte b s := rfl

theorem exec_pushByte_live (hf : s.fault = 0x00#8) (hp : s.parseByte b = .ok t) :
    exec (.pushByte b) s = .next t := by
  rw [exec_pushByte, execPushByte_live hf, hp, outcomeOf_ok]

/-- Past the signature scan a byte that has an address is stored and checked (R124 to R131). -/
theorem exec_pushByte_accepted (hf : s.fault = 0x00#8) (h2 : 2 ≤ s.parser.idx) (hlt : s.parser.idx < s.cfg.bufCap) :
    exec (.pushByte b) s = .next (s.accepted b).checkByte :=
  exec_pushByte_live hf (State.parseByte_accepted b h2 hlt)

/-- The state with a byte stored and MSG cleared (R122, R124). -/
def State.stored (s : State) (b : Byte) : State :=
  { s.clearMsg with parser := s.parser.stored b }

/-- Past the header no field is captured (R125 to R129). -/
theorem State.accepted_of_payload (h : 12 ≤ s.parser.idx) : s.accepted b = s.stored b := by
  rw [State.accepted_eq, if_neg (by omega), if_neg (by omega), if_neg (by omega), if_neg (by omega), if_neg (by omega)]
  rfl

/-- The byte that brings `idx` to 10 is the command code's last (R128). -/
theorem State.accepted_of_nine (h : s.parser.idx = 9) :
    s.accepted b =
      { s.clearMsg with
        parser :=
          { s.parser with
            sb := s.parser.sb.write 9 b, idx := 10, capCmd := (s.parser.sb.write 9 b).rd16 8 } } := by
  rw [State.accepted_eq, h]
  rfl

/-- The byte that brings `idx` to 12 is the length's last (R129). -/
theorem State.accepted_of_eleven (h : s.parser.idx = 11) :
    s.accepted b =
      { s.clearMsg with
        parser :=
          { s.parser with
            sb := s.parser.sb.write 11 b, idx := 12, capLen := (s.parser.sb.write 11 b).rd16 10 } } := by
  rw [State.accepted_eq, h]
  rfl

/-- The state with a header's last byte stored, a length of 0 captured and MSG cleared (R122, R129). -/
def State.emptyFrame (s : State) (b : Byte) : State :=
  { s.clearMsg with parser := { s.parser with sb := s.parser.sb.write 11 b, idx := 12, capLen := 0#16 } }

/-- The header that byte completes is tested with the captured length (R129, R130). -/
theorem State.headerStatus_of_eleven (h : s.parser.idx = 11) :
    (s.accepted b).headerStatus =
      Machine.headerStatus s.cfg s.parser.capCmd ((s.parser.sb.write 11 b).rd16 10) s.parser.capHck
        ((s.parser.sb.write 11 b).readRange 6 6) := by
  rw [State.accepted_of_eleven h]
  rfl

/-- The two tests in R129's words and R130's. -/
theorem headerStatus_eq (cfg : Config) (c len hck : U16) (header : List Byte) :
    headerStatus cfg c len hck header =
      (if LengthBroken cfg c len then 0x08#8 else 0x00#8) ||| if cksum16 header ≠ hck then 0x10#8 else 0x00#8 := by
  simp only [headerStatus, lenBad_eq_true, stLen, stHck]

theorem headerStatus_ne_zero {cfg : Config} {c len hck : U16} {header : List Byte} :
    headerStatus cfg c len hck header ≠ 0x00#8 ↔ LengthBroken cfg c len ∨ cksum16 header ≠ hck := by
  rw [Ne, headerStatus_eq_zero, not_and_or, Bool.not_eq_false, lenBad_eq_true]

/-! The ends of the checks, each by what it needs. -/

theorem State.checkByte_of_command (hi : u.parser.idx = 10) (hk : known u.parser.capCmd = false) :
    u.checkByte = u.resync stCmd :=
  if_pos ⟨hi, hk⟩

theorem State.checkByte_of_header (hi : u.parser.idx = 12) (hs : u.headerStatus ≠ 0x00#8) :
    u.checkByte = u.resync u.headerStatus := by
  rw [State.checkByte, if_neg (by omega), if_pos ⟨hi, hs⟩]

theorem State.checkByte_of_end (hi : 12 ≤ u.parser.idx) (he : u.parser.idx = 12 + u.parser.capLen.toNat)
    (hs : u.parser.idx = 12 → u.headerStatus = 0x00#8) : u.checkByte = u.completeFrame := by
  rw [State.checkByte, if_neg (by omega), if_neg (fun h => h.2 (hs h.1)), if_pos ⟨hi, he⟩]

theorem State.checkByte_of_pass (hk : u.parser.idx = 10 → known u.parser.capCmd = true)
    (hs : u.parser.idx = 12 → u.headerStatus = 0x00#8)
    (he : 12 ≤ u.parser.idx → u.parser.idx ≠ 12 + u.parser.capLen.toNat) : u.checkByte = u.finish 0x00#8 := by
  rw [State.checkByte, if_neg, if_neg (fun h => h.2 (hs h.1)), if_neg (fun h => he h.1 h.2)]
  rintro ⟨hi, hf⟩
  rw [hk hi] at hf
  cases hf

/-- The last payload byte completes its frame (R131). -/
theorem exec_pushByte_last (hf : s.fault = 0x00#8) (h12 : 12 ≤ s.parser.idx) (hlt : s.parser.idx < s.cfg.bufCap)
    (hend : s.parser.idx + 1 = 12 + s.parser.capLen.toNat) :
    exec (.pushByte b) s = .next (s.stored b).completeFrame := by
  have hidx : (s.stored b).parser.idx = s.parser.idx + 1 := rfl
  rw [exec_pushByte_accepted hf (by omega) hlt, State.accepted_of_payload h12,
    State.checkByte_of_end (by omega) hend (by omega)]

/-- A JSON frame of no payload bytes is complete with its header (R131). -/
theorem exec_pushByte_emptyFrame (hf : s.fault = 0x00#8) (hi : s.parser.idx = 11) (hlt : 11 < s.cfg.bufCap)
    (hlen : (s.parser.sb.write 11 b).rd16 10 = 0#16) (hc : s.parser.capCmd = cmdSar)
    (hck : cksum16 ((s.parser.sb.write 11 b).readRange 6 6) = s.parser.capHck) :
    exec (.pushByte b) s = .next (s.emptyFrame b).completeFrame := by
  have hgood : lenBad s.cfg cmdSar 0#16 = false := by simp [lenBad, variantOf]
  have hacc : s.accepted b = s.emptyFrame b := by
    rw [State.accepted_of_eleven hi, hlen]
    rfl
  have hzero : (s.emptyFrame b).headerStatus = 0x00#8 := by
    rw [← hacc, State.headerStatus_of_eleven hi, hlen, hc]
    exact headerStatus_eq_zero.mpr ⟨hgood, hck⟩
  rw [exec_pushByte_accepted hf (by omega) (by omega), hacc, State.checkByte_of_end le_rfl rfl fun _ => hzero]

/-! The ends of a complete frame, each by what it needs (R132 to R134). -/

theorem State.completeFrame_of_mismatch (h : cksum16 u.payload ≠ u.parser.capPck) :
    u.completeFrame = u.resync stPck :=
  if_pos h

theorem State.completeFrame_of_sar (h : cksum16 u.payload = u.parser.capPck) (hc : u.parser.capCmd = cmdSar) :
    u.completeFrame = (u.setIdx 0).decodeSar u.payload := by
  rw [State.completeFrame, if_neg (not_not_intro h), variantOf_eq_sar.mpr hc]

theorem State.completeFrame_of_stby (h : cksum16 u.payload = u.parser.capPck) (hc : u.parser.capCmd = cmdStby) :
    u.completeFrame = (u.setIdx 0).decodeStby u.payload := by
  rw [State.completeFrame, if_neg (not_not_intro h), variantOf_eq_stby.mpr hc]

theorem State.completeFrame_of_hb (h : cksum16 u.payload = u.parser.capPck) (hc : u.parser.capCmd = cmdHb) :
    u.completeFrame = (u.setIdx 0).decodeHb u.payload := by
  rw [State.completeFrame, if_neg (not_not_intro h), variantOf_eq_hb.mpr hc]

theorem State.decodeSar_of_none {pay : List Byte} (h : Config.jsonParse pay = none) :
    u.decodeSar pay = u.contentError := by
  rw [State.decodeSar, h]

theorem State.decodeSar_of_some {pay : List Byte} {d : JsonDoc} (h : Config.jsonParse pay = some d) :
    u.decodeSar pay = u.commit .sar { u.msg with sarDoc := d } := by
  rw [State.decodeSar, h]

end PushByte

/-! The statements about a pushed byte. -/

/-- Settles O31: the two ends of the signature scan, both with MSG cleared. -/
theorem pushByteScansSignature : Obligations.PushByteScansSignature := by
  unfold Obligations.PushByteScansSignature
  intro s b hf hi hlt
  by_cases hb : b = 0x54#8
  · rw [if_pos hb, hb]
    exact exec_pushByte_live hf (State.parseByte_signature hi hlt)
  · rw [if_neg hb]
    exact exec_pushByte_live hf (State.parseByte_noise hi hb)

/-- Settles O32: the captures are those of `accepted_eq`, and no check of R128 to R131 applies. -/
theorem pushByteAccumulates : Obligations.PushByteAccumulates := by
  unfold Obligations.PushByteAccumulates
  intro s b hf h2 hlt h9 h11 hend
  have hlen : (s.accepted b).parser.capLen = s.parser.capLen := by
    rw [State.accepted_parser, ParserRegs.capLen_capture_stored, if_neg (by omega)]
  rw [exec_pushByte_accepted hf h2 hlt, State.checkByte_of_pass, State.accepted_eq, if_neg h9, if_neg h11]
  · rfl
  all_goals rw [State.accepted_idx]
  · omega
  · omega
  · rw [hlen]
    exact fun h => hend (by omega)

/-- Settles O33: `CAP_CMD` is read from `SB`, and the check of R128 is membership in `KNOWN`. -/
theorem pushByteChecksCommandCode : Obligations.PushByteChecksCommandCode := by
  unfold Obligations.PushByteChecksCommandCode
  rintro s b c hf hi hlt rfl
  rw [exec_pushByte_accepted hf (by omega) (by omega), State.accepted_of_nine hi]
  split
  · next hk =>
    rw [State.checkByte_of_pass (fun _ => mem_known.mp hk) (by simp) (by simp)]
    rfl
  · next hk =>
    rw [mem_known, Bool.not_eq_true] at hk
    rw [State.checkByte_of_command rfl hk]
    rfl

/-- Settles O34: both tests are made on the captured length, and a header that passes both goes on. -/
theorem pushByteChecksHeader : Obligations.PushByteChecksHeader := by
  unfold Obligations.PushByteChecksHeader
  rintro s b len sb hf hi hlt rfl rfl
  have hidx : (s.accepted b).parser.idx = 12 := by rw [State.accepted_idx, hi]
  have hst := State.headerStatus_of_eleven (b := b) hi
  rw [exec_pushByte_accepted hf (by omega) (by omega)]
  refine ⟨fun hbad => ⟨_, rfl, ?_⟩, fun hlen hck hne => ?_⟩
  · have hne := hst ▸ headerStatus_ne_zero.mpr hbad
    rw [State.checkByte_of_header hidx hne, hst, headerStatus_eq, State.accepted_of_eleven hi]
    rfl
  · have hzero : (s.accepted b).headerStatus = 0x00#8 := by
      rw [hst, headerStatus_eq, if_neg hlen, if_neg (not_not_intro hck), BitVec.or_self]
    rw [State.checkByte_of_pass (by omega) (fun _ => hzero), State.accepted_of_eleven hi]
    · rfl
    · rw [State.accepted_of_eleven hi]
      exact fun _ hend => hne (BitVec.eq_of_toNat_eq (Nat.add_left_cancel hend).symm)

/-- Settles O35: the frame in `SB` is complete, and `completeFrame` decodes it by the captured command. -/
theorem pushByteCompletesFrame : Obligations.PushByteCompletesFrame := by
  unfold Obligations.PushByteCompletesFrame
  rintro s b sb pay t hf h12 hlt hend rfl rfl rfl
  rw [exec_pushByte_last hf h12 hlt hend]
  refine ⟨fun hck => ?_, fun hck => ⟨fun hc => ?_, fun hc => ?_, fun hc d hd => ?_, fun hc hd => ?_⟩⟩
  · rw [State.completeFrame_of_mismatch (u := s.stored b) hck]
    rfl
  · rw [State.completeFrame_of_stby (u := s.stored b) hck hc, decide_not]
    rfl
  · rw [State.completeFrame_of_hb (u := s.stored b) hck hc]
    rfl
  · rw [(State.completeFrame_of_sar (u := s.stored b) hck hc).trans (State.decodeSar_of_some hd)]
    rfl
  · rw [(State.completeFrame_of_sar (u := s.stored b) hck hc).trans (State.decodeSar_of_none hd)]
    rfl

/-- Settles O36: the header that passes is a complete frame, whose payload is the empty string of checksum 0. -/
theorem zeroLengthFrameCompletesOnTwelfthByte : Obligations.ZeroLengthFrameCompletesOnTwelfthByte := by
  unfold Obligations.ZeroLengthFrameCompletesOnTwelfthByte
  rintro s b sb t hf hi hlt rfl hlen hc hck rfl
  rw [exec_pushByte_emptyFrame hf hi hlt hlen hc hck]
  refine ⟨fun hp => ?_, fun hp hd => ?_, fun hp d hd => ?_⟩
  · rw [State.completeFrame_of_mismatch (u := s.emptyFrame b) hp.symm]
    rfl
  · rw [(State.completeFrame_of_sar (u := s.emptyFrame b) hp.symm hc).trans (State.decodeSar_of_none hd)]
    rfl
  · rw [(State.completeFrame_of_sar (u := s.emptyFrame b) hp.symm hc).trans (State.decodeSar_of_some hd)]
    rfl

end Sys2Proof.Machine

/-! Steps and faults: the command of a complete frame is run, and a faulted block refuses (R236, log entry 9). -/

namespace Sys2Proof.Machine

section Refusing

variable {s : State}

theorem State.access_faulted (h : s.fault ≠ 0x00#8) (available : Bool) (r : HostResult) :
    s.access available r = s.returns .refused :=
  State.unlessFaulted_faulted h _ _

theorem execSerialize_faulted (h : s.fault ≠ 0x00#8) : execSerialize s = .next (s.returns .refused) :=
  if_pos h

theorem execPushByte_faulted (h : s.fault ≠ 0x00#8) (b : Byte) :
    execPushByte b s = .next (s.returns (.status stRefused)) :=
  if_pos h

theorem execFeed_faulted (h : s.fault ≠ 0x00#8) (bs : Option (List Byte)) :
    execFeed bs s = .next (s.returns (.feed false 0 (bs.getD []) stRefused)) :=
  if_pos h

/-- R236's row "every other operation": it returns "refused" and writes nothing else. -/
theorem exec_faulted {i : Instr} (h : s.fault ≠ 0x00#8) (hpush : ∀ b, i ≠ .pushByte b) (hfeed : ∀ bs, i ≠ .feed bs)
    (hstatus : i ≠ .getStatus) (hreset : i ≠ .reset) : exec i s = .next (s.returns .refused) := by
  cases i with
  | pushByte b => exact absurd rfl (hpush b)
  | feed bs => exact absurd rfl (hfeed bs)
  | getStatus => exact absurd rfl hstatus
  | reset => exact absurd rfl hreset
  | serialize => exact execSerialize_faulted h
  | setProps _ | setCmd _ | setSar _ | setStandby _ | setHeartbeat _ _ _ _ _ | setSarMode | setStandbyState
  | heartbeat => exact congrArg _ (State.unlessFaulted_faulted h _ _)
  | getOut | getProps | getPriority | getAck | getVersion | getReserved | getCmd | getLen | getSar | getSarText
  | getStandby | getHeartbeat => exact congrArg _ (State.access_faulted h _ _)

end Refusing

section FrameReady

variable {s : State} {c : U16} {i : Instr}

/-- All that a complete frame in `SB` says of the parser (R129, R131, R132). -/
theorem State.frameReady_iff :
    s.frameReady c = true ↔
      (12 ≤ s.parser.idx ∧ s.parser.idx = 12 + s.parser.capLen.toNat) ∧ s.parser.capCmd = c ∧
        lenBad s.cfg s.parser.capCmd s.parser.capLen = false ∧ cksum16 s.payload = s.parser.capPck := by
  simp [State.frameReady, and_assoc]

theorem State.fetch_of_frameReady (h : s.frameReady c = true) (hi : decodeCommand c = some i) :
    s.fetch = .run i s := by
  obtain ⟨_, rfl, _⟩ := State.frameReady_iff.mp h
  have hp : s.pendingCommand = some i := by rw [State.pendingCommand, if_pos h, hi]
  rw [State.fetch, hp]

/-- A guarded frame command with no frame of its own to decode (log entry 9). -/
theorem State.frameCommand_idle (hf : s.fault = 0x00#8) (h : s.frameReady c = false) (u : State) :
    s.unlessFaulted .refused (if s.frameReady c then u else s.returns .none) = s.returns .none := by
  rw [State.unlessFaulted_live hf, if_neg (Bool.eq_false_iff.mp h)]

/-- A guarded frame command with its frame in `SB`. -/
theorem State.frameCommand_ready (hf : s.fault = 0x00#8) (h : s.frameReady c = true) (u : State) :
    s.unlessFaulted .refused (if s.frameReady c then u else s.returns .none) = u := by
  rw [State.unlessFaulted_live hf, if_pos h]

/-- The known codes, each with the command it decodes to (R77). -/
theorem decodeCommand_eq_some (h : decodeCommand c = some i) :
    c = cmdSar ∧ i = .setSarMode ∨ c = cmdStby ∧ i = .setStandbyState ∨ c = cmdHb ∧ i = .heartbeat := by
  unfold decodeCommand at h
  split at h
  · next hc => exact .inl ⟨hc, (Option.some.inj h).symm⟩
  · split at h
    · next hc => exact .inr (.inl ⟨hc, (Option.some.inj h).symm⟩)
    · split at h
      · next hc => exact .inr (.inr ⟨hc, (Option.some.inj h).symm⟩)
      · cases h

end FrameReady

/-! The statements about frame commands and refusals. -/

/-- Settles O15: the guard of each operation is the fault register (R121, R236). -/
theorem faultedBlockRefuses : Obligations.FaultedBlockRefuses := by
  unfold Obligations.FaultedBlockRefuses
  intro s h
  exact ⟨execPushByte_faulted h, fun bs => execFeed_faulted h (some bs), execFeed_faulted h none,
    fun i _ hpush hfeed hstatus hreset => exec_faulted h hpush hfeed hstatus hreset, State.unlessFaulted_faulted h _ _⟩

/-- Settles O7: the command of a complete frame is fetched before the host port is read. -/
theorem stepRunsCommandOfCompleteFrame : Obligations.StepRunsCommandOfCompleteFrame := by
  unfold Obligations.StepRunsCommandOfCompleteFrame
  intro s c i hw hr hi
  exact step_of_run hw (State.fetch_of_frameReady hr hi)

/-- Settles O42: a frame command tests for its frame, and the invariant keeps `idx` below a frame's end (R135). -/
theorem frameCommandsNeedCompleteFrame : Obligations.FrameCommandsNeedCompleteFrame := by
  unfold Obligations.FrameCommandsNeedCompleteFrame
  intro s
  exact ⟨fun hf hr => congrArg _ (State.frameCommand_idle hf hr _),
    fun hf hr => congrArg _ (State.frameCommand_idle hf hr _),
    fun hf hr => congrArg _ (State.frameCommand_idle hf hr _), BlockInv.frameReady_eq_false⟩

end Sys2Proof.Machine

/-! What a byte returns and what it leaves in MSG (R122, R133, R134, R136, R137), by how it ends. -/

namespace Sys2Proof.Machine

section Ended

variable {s t u : State} {b : Byte}

/-- MSG after a byte with the status word `st`: readable with `DONE`, marked invalid with `E_CONTENT`, else empty. -/
structure MsgFollows (m : MsgRegs) (st : Byte) : Prop where
  state : m.state = if st = stDone then .valid else if st = stContent then .contentInvalid else .empty
  propsW : m.propsW = decide (st = stDone)
  cmdW : m.cmdW = decide (st = stDone)
  tag : m.tag ≠ .none ↔ st = stDone

/-- MSG is cleared (R122). -/
structure MsgCleared (m : MsgRegs) : Prop where
  state : m.state = .empty
  propsW : m.propsW = false
  cmdW : m.cmdW = false
  tag : m.tag = .none

/-- R136: the byte's status word is latched and returned, and MSG is as it says. -/
structure Ended (t : State) : Prop where
  ret : t.ret = .status t.lastStatus
  latched : t.lastStatus ∈ latchedStatuses
  msg : MsgFollows t.msg t.lastStatus

theorem State.clearMsg_cleared (s : State) : MsgCleared s.clearMsg.msg := ⟨rfl, rfl, rfl, rfl⟩

/-- A byte that neither completes a message nor meets a content error leaves MSG cleared. -/
theorem MsgCleared.finish (h : MsgCleared u.msg) {st : Byte} (hst : st ∈ latchedStatuses) (hd : st ≠ stDone)
    (hc : st ≠ stContent) : Ended (u.finish st) where
  ret := rfl
  latched := hst
  msg :=
    { state := by rw [State.finish_lastStatus, if_neg hd, if_neg hc]; exact h.state
      propsW := h.propsW.trans (decide_eq_false hd).symm
      cmdW := h.cmdW.trans (decide_eq_false hd).symm
      tag := iff_of_false (not_not_intro h.tag) hd }

theorem MsgCleared.resync (h : MsgCleared u.msg) {st : Byte} (hst : st ∈ latchedStatuses) (hd : st ≠ stDone)
    (hc : st ≠ stContent) : Ended (u.resync st) :=
  MsgCleared.finish (u := u.setIdx 0) h hst hd hc

theorem stContent_ne_stDone : stContent ≠ stDone := by decide

theorem MsgCleared.contentError (h : MsgCleared u.msg) : Ended u.contentError :=
  ⟨rfl, (by decide : stContent ∈ latchedStatuses), rfl, h.propsW, h.cmdW,
    iff_of_false (not_not_intro h.tag) stContent_ne_stDone⟩

theorem State.commit_ended (u : State) {g : Tag} (hg : g ≠ .none) (m : MsgRegs) : Ended (u.commit g m) :=
  ⟨rfl, (by decide : stDone ∈ latchedStatuses), rfl, rfl, rfl, iff_of_true hg rfl⟩

theorem MsgCleared.completeFrame (h : MsgCleared u.msg) : Ended u.completeFrame := by
  rcases u.completeFrame_cases with
    ⟨_, he⟩ | ⟨_, _, he⟩ | ⟨_, _, _, he⟩ | ⟨_, _, _, _, he⟩ | ⟨_, _, he⟩ | ⟨_, _, he⟩ <;> rw [he]
  · exact h.resync (by decide) (by decide) (by decide)
  · exact h.resync (by decide) (by decide) (by decide)
  · exact MsgCleared.contentError (u := u.setIdx 0) h
  · exact State.commit_ended _ (g := .sar) nofun _
  · exact State.commit_ended _ (g := .stby) nofun _
  · exact State.commit_ended _ (g := .hb) nofun _

/-- The words of the header tests are none of those that write MSG (R129, R130). -/
theorem State.headerStatus_ne (u : State) : u.headerStatus ≠ stDone ∧ u.headerStatus ≠ stContent := by
  have hall : ∀ st ∈ [0x00#8, 0x08#8, 0x10#8, 0x18#8], st ≠ stDone ∧ st ≠ stContent := by decide
  exact hall _ (headerStatus_cases _ _ _ _ _)

theorem MsgCleared.checkByte (h : MsgCleared u.msg) : Ended u.checkByte := by
  rcases u.checkByte_cases with ⟨_, _, he⟩ | ⟨_, _, he⟩ | ⟨_, _, _, he⟩ | ⟨_, _, _, he⟩ <;> rw [he]
  · exact h.resync (by decide) (by decide) (by decide)
  · exact h.resync u.headerStatus_latched u.headerStatus_ne.1 u.headerStatus_ne.2
  · exact h.completeFrame
  · exact h.finish (by decide) (by decide) (by decide)

/-- How a byte ends (R120). -/
theorem State.parseByte_ended (h : s.parseByte b = .ok t) : Ended t := by
  rcases State.parseByte_cases h with ⟨_, _, _, rfl⟩ | ⟨_, _, rfl⟩ | ⟨_, _, rfl⟩
  · exact MsgCleared.finish (u := { s.clearMsg with parser := s.parser.stored b }) s.clearMsg_cleared (by decide)
      (by decide) (by decide)
  · exact s.clearMsg_cleared.resync (by decide) (by decide) (by decide)
  · exact MsgCleared.checkByte (u := s.accepted b) s.clearMsg_cleared

/-- `DONE` is a status word of its own (R137). -/
theorem Ended.done_iff (h : Ended t) : t.lastStatus &&& stDone ≠ 0x00#8 ↔ t.lastStatus = 0x01#8 := by
  have hall : ∀ st ∈ latchedStatuses, st &&& stDone ≠ 0x00#8 ↔ st = 0x01#8 := by decide
  exact hall _ h.latched

/-- Under the invariant every byte has an address (R146). -/
theorem BlockInv.exists_parseByte (h : BlockInv s) (b : Byte) : ∃ t, s.parseByte b = .ok t :=
  State.parseByte_ok b h.idx_lt_bufCap

theorem BlockInv.exists_execPushByte (h : BlockInv s) (b : Byte) : ∃ t, Machine.execPushByte b s = .next t := by
  by_cases hf : s.fault = 0x00#8
  · obtain ⟨t, ht⟩ := h.exists_parseByte b
    exact ⟨t, exec_pushByte_live hf ht⟩
  · exact ⟨_, execPushByte_faulted hf b⟩

end Ended

/-- A frame command run on its complete frame ends it as `PUSH_BYTE` does (R132 to R135, log entry 9). -/
theorem exec_frameCommand {u : State} {i : Instr} (hf : u.fault = 0x00#8) (hr : u.frameReady u.parser.capCmd = true)
    (hi : decodeCommand u.parser.capCmd = some i) : exec i u = .next u.clearMsg.completeFrame := by
  obtain ⟨_, _, _, hck⟩ := State.frameReady_iff.mp hr
  rcases decodeCommand_eq_some hi with ⟨hc, rfl⟩ | ⟨hc, rfl⟩ | ⟨hc, rfl⟩ <;> rw [hc] at hr
  · rw [State.completeFrame_of_sar (u := u.clearMsg) hck hc]
    exact congrArg _ (State.frameCommand_ready hf hr _)
  · rw [State.completeFrame_of_stby (u := u.clearMsg) hck hc]
    exact congrArg _ (State.frameCommand_ready hf hr _)
  · rw [State.completeFrame_of_hb (u := u.clearMsg) hck hc]
    exact congrArg _ (State.frameCommand_ready hf hr _)

/-! The statements about the end of a byte. -/

/-- Settles O37: a refused byte returns `REFUSED`, and any other returns the word it latches. -/
theorem pushByteStatusWords : Obligations.PushByteStatusWords := by
  unfold Obligations.PushByteStatusWords
  intro s t b h
  rcases execPushByte_next h with ⟨hf, rfl⟩ | ⟨hf, hp⟩
  · exact ⟨stRefused, rfl, by decide, iff_of_true rfl hf, fun h0 => absurd h0 hf⟩
  · have he := State.parseByte_ended hp
    have hall : ∀ st ∈ latchedStatuses, st ≠ 0x80#8 := by decide
    exact ⟨t.lastStatus, he.ret, List.mem_append_left [0x80#8] he.latched,
      iff_of_false (hall _ he.latched) (not_not_intro hf), fun _ => rfl⟩

/-- Settles O38: `Ended` says it of every byte that is not refused. -/
theorem pushByteLeavesMessageReadableOnlyOnDone : Obligations.PushByteLeavesMessageReadableOnlyOnDone := by
  unfold Obligations.PushByteLeavesMessageReadableOnlyOnDone
  intro s t b hf h
  rw [exec_pushByte, execPushByte_live hf] at h
  obtain ⟨hstate, hprops, hcmd, htag⟩ := (State.parseByte_ended (outcomeOf_next.mp h)).msg
  exact ⟨hstate, hprops, hcmd, htag⟩

/-- Settles O40: `idx` is below `BUF_CAP` under the invariant, and a byte lacks an address only past it. -/
theorem pushByteAlwaysCompletes : Obligations.PushByteAlwaysCompletes := by
  unfold Obligations.PushByteAlwaysCompletes
  intro s b h
  exact ⟨h.idx_lt_bufCap, h.exists_execPushByte b⟩

/-- Settles O43: both decode the frame that the last byte completes. -/
theorem lastByteRunsFrameCommand : Obligations.LastByteRunsFrameCommand := by
  unfold Obligations.LastByteRunsFrameCommand
  intro s u b i hf h12 hlt hu hr hi
  have hstored : s.stored b = u.clearMsg := by rw [hu]; rfl
  have hend : s.parser.idx + 1 = 12 + s.parser.capLen.toNat := by
    obtain ⟨⟨_, hend⟩, _⟩ := State.frameReady_iff.mp hr
    rwa [hu] at hend
  rw [exec_pushByte_last hf h12 hlt hend, hstored, exec_frameCommand (hu ▸ hf) hr hi]

end Sys2Proof.Machine

/-! `FEED` (R140 to R142): what becomes of a string, and the loop in each case. -/

namespace Sys2Proof.Machine

section FeedRuns

variable {s t u : State} {b : Byte} {d diag : Byte} {bs pre post : List Byte} {f : Fault} {n j : Nat}

/-- All that pushing a string from `s` can come to: no byte of it returns `DONE`; one does, and those before it do not; or
one has no address. -/
inductive FeedRun (s : State) (bs : List Byte) : Prop where
  | all {d : Byte} {t : State} (h : Feeds s bs d t)
  | done {pre post : List Byte} {b d : Byte} {t u : State} (hbs : bs = pre ++ b :: post) (h : Feeds s pre d t)
      (hp : t.parseByte b = .ok u) (hd : u.lastStatus &&& stDone ≠ 0x00#8)
  | error {pre post : List Byte} {b d : Byte} {t : State} {f : Fault} (hbs : bs = pre ++ b :: post)
      (h : Feeds s pre d t) (hp : t.parseByte b = .error f)

theorem feedRun (s : State) (bs : List Byte) : FeedRun s bs := by
  induction bs using List.reverseRecOn with
  | nil => exact .all .nil
  | append_singleton bs b ih =>
    cases ih with
    | @all d t h =>
      cases hp : t.parseByte b with
      | error f => exact .error rfl h hp
      | ok u =>
        by_cases hd : u.lastStatus &&& stDone = 0x00#8
        · exact .all (h.snoc hp hd)
        · exact .done rfl h hp hd
    | done hbs h hp hd => exact .done (by rw [hbs, List.append_assoc, List.cons_append]) h hp hd
    | error hbs h hp => exact .error (by rw [hbs, List.append_assoc, List.cons_append]) h hp

/-! The loop of R140 in the three cases. -/

theorem Feeds.feedLoop_all (h : Feeds s bs d t) (n : Nat) (diag : Byte) :
    s.feedLoop n diag bs = .ok (t.returns (.feed false (n + bs.length) [] (diag ||| d))) := by
  have hl := h.feedLoop n diag []
  rwa [List.append_nil, State.feedLoop_nil] at hl

theorem Feeds.feedLoop_done (h : Feeds s pre d t) (hp : t.parseByte b = .ok u)
    (hd : u.lastStatus &&& stDone ≠ 0x00#8) (n : Nat) (diag : Byte) (post : List Byte) :
    s.feedLoop n diag (pre ++ b :: post) =
      .ok (u.returns (.feed true (n + (pre.length + 1)) post (diag ||| (d ||| u.lastStatus)))) := by
  rw [h.feedLoop, State.feedLoop_cons _ _ _ hp, if_pos hd, BitVec.or_assoc]
  rfl

theorem Feeds.feedLoop_error (h : Feeds s pre d t) (hp : t.parseByte b = .error f) (n : Nat) (diag : Byte)
    (post : List Byte) : s.feedLoop n diag (pre ++ b :: post) = .error f := by
  rw [h.feedLoop, State.feedLoop, hp]

theorem exec_feed_live (hf : s.fault = 0x00#8) (bs : List Byte) :
    exec (.feed (some bs)) s = outcomeOf (s.feedLoop 0 0x00#8 bs) :=
  if_neg (not_not_intro hf)

/-- A loop entered with bytes consumed and status bits gathered adds its own to them. -/
theorem State.feedLoop_shift (h : s.feedLoop 0 0x00#8 bs = .ok u) (n : Nat) (diag : Byte) :
    ∃ found k r d, u.ret = .feed found k r d ∧
      s.feedLoop n diag bs = .ok (u.returns (.feed found (n + k) r (diag ||| d))) := by
  cases feedRun s bs with
  | all hrun =>
    rw [hrun.feedLoop_all, Nat.zero_add, BitVec.zero_or] at h
    cases h
    exact ⟨_, _, _, _, rfl, hrun.feedLoop_all n diag⟩
  | done hbs hrun hp hd =>
    rw [hbs, hrun.feedLoop_done hp hd, Nat.zero_add, BitVec.zero_or] at h
    cases h
    exact ⟨_, _, _, _, rfl, hbs ▸ hrun.feedLoop_done hp hd n diag _⟩
  | error hbs hrun hp =>
    rw [hbs, hrun.feedLoop_error hp] at h
    cases h

/-! The last result is never read (log entry 6). -/

theorem State.storeByte_returns (s : State) (r : HostResult) (b : Byte) :
    (s.returns r).storeByte b = (s.storeByte b).map (·.returns r) := by
  by_cases h : s.parser.idx < s.cfg.bufCap
  · have hs : s.storeByte b = .ok _ := if_pos h
    have hr : (s.returns r).storeByte b = .ok _ := if_pos h
    rw [hs, hr]
    rfl
  · have hs : s.storeByte b = .error _ := if_neg h
    have hr : (s.returns r).storeByte b = .error _ := if_neg h
    rw [hs, hr]
    rfl

theorem State.scanSignature_returns (s : State) (r : HostResult) (b : Byte) :
    (s.returns r).scanSignature b = s.scanSignature b := by
  rw [State.scanSignature, State.scanSignature, State.storeByte_returns]
  cases s.storeByte b with
  | ok t => rfl
  | error f => rfl

theorem State.accumulate_returns (s : State) (r : HostResult) (b : Byte) :
    (s.returns r).accumulate b = s.accumulate b := by
  rw [State.accumulate, State.accumulate, State.storeByte_returns]
  cases s.storeByte b with
  | ok t => rfl
  | error f => rfl

theorem State.parseByte_returns (s : State) (r : HostResult) (b : Byte) :
    (s.returns r).parseByte b = s.parseByte b := by
  have hclear : (s.returns r).clearMsg = s.clearMsg.returns r := rfl
  rw [State.parseByte, State.parseByte, hclear, State.scanSignature_returns, State.accumulate_returns,
    State.returns_parser]

theorem State.feedLoop_returns (s : State) (r : HostResult) (n : Nat) (diag : Byte) (bs : List Byte) :
    (s.returns r).feedLoop n diag bs = s.feedLoop n diag bs := by
  cases bs with
  | nil => rfl
  | cons b bs => rw [State.feedLoop, State.feedLoop, State.parseByte_returns]

/-! Byte by byte. -/

theorem pushAll_cons (h : exec (.pushByte b) s = .next t) (bs : List Byte) :
    pushAll (b :: bs) s = pushAll bs t := by
  rw [pushAll, h]

theorem pushDiag_cons (h : exec (.pushByte b) s = .next t) (bs : List Byte) :
    pushDiag (b :: bs) s = t.lastStatus ||| pushDiag bs t := by
  rw [pushDiag, h]

theorem exists_of_pushAll_cons (h : pushAll (b :: bs) s = .next u) :
    ∃ t, exec (.pushByte b) s = .next t ∧ pushAll bs t = .next u := by
  cases hb : exec (.pushByte b) s with
  | next t => exact ⟨t, rfl, (pushAll_cons hb bs).symm.trans h⟩
  | fault f => rw [pushAll, hb] at h; cases h
  | refused r => rw [pushAll, hb] at h; cases h

/-- One byte more after a string. -/
theorem push_snoc (h : pushAll bs s = .next t) (hp : exec (.pushByte b) t = .next u) :
    pushAll (bs ++ [b]) s = .next u ∧ pushDiag (bs ++ [b]) s = pushDiag bs s ||| u.lastStatus := by
  induction bs generalizing s with
  | nil =>
    cases h
    rw [List.nil_append, pushAll_cons hp, pushDiag_cons hp, pushDiag, pushDiag, BitVec.or_zero, BitVec.zero_or]
    exact ⟨rfl, rfl⟩
  | cons c bs ih =>
    obtain ⟨v, hc, hv⟩ := exists_of_pushAll_cons h
    obtain ⟨hall, hdiag⟩ := ih hv
    rw [List.cons_append, pushAll_cons hc, pushDiag_cons hc, pushDiag_cons hc, hdiag, BitVec.or_assoc]
    exact ⟨hall, rfl⟩

theorem Feeds.fault_eq (h : Feeds s bs d t) : t.fault = s.fault := by
  induction h with
  | nil => rfl
  | snoc _ hp _ ih => exact (State.parseByte_keeps hp).fault.trans ih

/-- One byte more, whatever it returns. -/
theorem Feeds.exec_pushByte (h : Feeds s bs d t) (hf : s.fault = 0x00#8) (hp : t.parseByte b = .ok u) :
    exec (.pushByte b) t = .next u :=
  exec_pushByte_live (h.fault_eq.trans hf) hp

theorem Feeds.push (h : Feeds s bs d t) (hf : s.fault = 0x00#8) : pushAll bs s = .next t ∧ pushDiag bs s = d := by
  induction h with
  | nil => exact ⟨rfl, rfl⟩
  | snoc h hp _ ih =>
    obtain ⟨hall, hdiag⟩ := ih
    rw [← hdiag]
    exact push_snoc hall (h.exec_pushByte hf hp)

/-- No byte of such a string returned `DONE`. -/
theorem Feeds.take_ne_done (h : Feeds s bs d t) (hf : s.fault = 0x00#8) (h0 : 0 < j) (hj : j ≤ bs.length)
    (hv : pushAll (bs.take j) s = .next u) : u.lastStatus ≠ 0x01#8 := by
  induction h with
  | nil => exact absurd hj (by simpa using h0.ne')
  | @snoc bs b d t w h hp hd ih =>
    by_cases hlt : j ≤ bs.length
    · rw [List.take_append_of_le_length hlt] at hv
      exact ih hlt hv
    · have hwhole := ((h.snoc hp hd).push hf).1
      rw [List.take_of_length_le (by simp; omega), hwhole] at hv
      cases hv
      intro hst
      rw [hst] at hd
      exact absurd hd (by decide)

end FeedRuns

/-! Under the invariant every operation answers a next state. -/

section Answers

variable {s : State}

/-- Every serialization fits (R31): each arm's length rule bounds it. -/
theorem BlockInv.serialized_fits (h : BlockInv s) (hp : s.populated = true) : 12 + s.msg.plen.toNat ≤ s.cfg.bufCap := by
  obtain ⟨_, _, _, htag⟩ := State.populated_iff.mp hp
  obtain ⟨_, hhb, hsar, hcap⟩ := s.cfg.wf_iff.mp h.cfgWf
  have hfits := h.cfgFits
  simp only [Config.fits, Bool.and_eq_true, decide_eq_true_eq] at hfits
  cases hg : s.msg.tag with
  | none => exact absurd hg htag
  | sar => have := h.msg.sarLen hg; omega
  | stby => have := h.msg.stbyLen hg; omega
  | hb => have := h.msg.hbLen hg; omega

theorem BlockInv.exists_execSerialize (h : BlockInv s) : ∃ t, Machine.execSerialize s = .next t := by
  unfold Machine.execSerialize
  split
  · exact ⟨_, rfl⟩
  · split
    · exact ⟨_, rfl⟩
    · next hp =>
      rw [if_neg (h.serialized_fits (by simpa using hp)).not_gt]
      exact ⟨_, rfl⟩

theorem BlockInv.exists_feedLoop (h : BlockInv s) (n : Nat) (diag : Byte) (bs : List Byte) :
    ∃ t, s.feedLoop n diag bs = .ok t := by
  induction bs generalizing s n diag with
  | nil => exact ⟨_, s.feedLoop_nil n diag⟩
  | cons b bs ih =>
    obtain ⟨t, ht⟩ := h.exists_parseByte b
    rw [State.feedLoop_cons n diag bs ht]
    split
    · exact ⟨_, rfl⟩
    · exact ih (h.parseByte ht) _ _

theorem BlockInv.exists_execFeed (h : BlockInv s) (bs : Option (List Byte)) : ∃ t, Machine.execFeed bs s = .next t := by
  unfold Machine.execFeed
  split
  · exact ⟨_, rfl⟩
  · cases bs with
    | none => exact ⟨_, rfl⟩
    | some bs =>
      obtain ⟨t, ht⟩ := h.exists_feedLoop 0 0x00#8 bs
      exact ⟨t, outcomeOf_next.mpr ht⟩

theorem BlockInv.exists_exec (h : BlockInv s) (i : Instr) : ∃ t, Machine.exec i s = .next t := by
  cases i with
  | pushByte b => exact h.exists_execPushByte b
  | feed bs => exact h.exists_execFeed bs
  | serialize => exact h.exists_execSerialize
  | setProps _ | setCmd _ | setSar _ | setStandby _ | setHeartbeat _ _ _ _ _ | getOut | getProps | getPriority | getAck
  | getVersion | getReserved | getCmd | getLen | getSar | getSarText | getStandby | getHeartbeat | getStatus | reset
  | setSarMode | setStandbyState | heartbeat => exact ⟨_, rfl⟩

end Answers

/-! The statements about `FEED` and about progress. -/

/-- Settles O44: `FeedRun` has no byte without an address under the invariant, and its other two cases are the two values
of `found`. -/
theorem feedPushesUntilDone : Obligations.FeedPushesUntilDone := by
  unfold Obligations.FeedPushesUntilDone
  refine ⟨rfl, fun s => ⟨fun hf => if_neg (not_not_intro hf), execFeed_faulted, fun bs hs hf => ?_⟩⟩
  rw [exec_feed_live hf]
  cases feedRun s bs with
  | @all d t h =>
    obtain ⟨hall, hdiag⟩ := h.push hf
    refine ⟨_, t, bs.length, false, congrArg outcomeOf (h.feedLoop_all 0 0x00#8), ?_, le_rfl, ?_, rfl, fun _ => rfl,
      nofun, fun j v h0 hj hv => h.take_ne_done hf h0 (by omega) hv⟩
    · simp [hdiag]
    · rwa [List.take_length]
  | @done pre post b d t u hbs h hp hd =>
    obtain ⟨hall, hdiag⟩ := h.push hf
    obtain ⟨hallLast, hdiagLast⟩ := push_snoc hall (h.exec_pushByte hf hp)
    have hsplit : bs = (pre ++ [b]) ++ post := hbs.trans (List.append_cons pre b post)
    have htake : bs.take (pre.length + 1) = pre ++ [b] := hsplit ▸ List.take_left' List.length_append
    have hdrop : bs.drop (pre.length + 1) = post := hsplit ▸ List.drop_left' List.length_append
    subst hbs
    refine ⟨_, u, pre.length + 1, true, congrArg outcomeOf (h.feedLoop_done hp hd 0 0x00#8 post), ?_, by simp, ?_, rfl,
      nofun, fun _ => ⟨by omega, (State.parseByte_ended hp).done_iff.mp hd⟩, fun j v h0 hj hv => ?_⟩
    · rw [htake, hdrop, hdiagLast, hdiag, BitVec.zero_or, Nat.zero_add]
      rfl
    · rw [htake]
      exact hallLast
    · have hle : j ≤ pre.length := hj.elim Nat.le_of_lt_succ fun h => nomatch h.1
      rw [List.take_append_of_le_length hle] at hv
      exact h.take_ne_done hf h0 hle hv
  | error hbs h hp =>
    obtain ⟨t, ht⟩ := (h.inv hs).exists_parseByte _
    rw [hp] at ht
    cases ht

/-- Settles O45: the loop on the joined string reaches the state in which the second `FEED` starts, with the first one's
count and bits gathered. -/
theorem feedIsChunkingIndependent : Obligations.FeedIsChunkingIndependent := by
  unfold Obligations.FeedIsChunkingIndependent
  intro s t u a b r r' n n' found d d' hf ha hra hb hrb
  rw [exec_feed_live hf] at ha
  cases feedRun s a with
  | @all d₀ t₀ h =>
    rw [h.feedLoop_all, Nat.zero_add, BitVec.zero_or] at ha
    cases ha
    rw [exec_feed_live ((t₀.returns_fault _).trans (h.fault_eq.trans hf)), State.feedLoop_returns] at hb
    obtain ⟨_, _, _, _, hret, hloop⟩ := State.feedLoop_shift (outcomeOf_next.mp hb) a.length d₀
    cases hra
    cases hret.symm.trans hrb
    refine ⟨u.returns (.feed found (a.length + n') r' (d ||| d')), ?_, rfl, rfl⟩
    rw [exec_feed_live hf, h.feedLoop, Nat.zero_add, BitVec.zero_or, hloop, outcomeOf_ok]
  | done hbs h hp hd =>
    rw [hbs, h.feedLoop_done hp hd] at ha
    cases ha
    cases hra
  | error hbs h hp =>
    rw [hbs, h.feedLoop_error hp] at ha
    cases ha

/-- Settles O58: a step runs an instruction, takes an illegal code or waits, and each answers a next state. -/
theorem invariantStateAlwaysSteps : Obligations.InvariantStateAlwaysSteps := by
  unfold Obligations.InvariantStateAlwaysSteps
  intro s h
  rcases s.fetch_cases with ⟨i, port, docs, hf⟩ | ⟨port, docs, hf⟩ | hf
  · rw [step_of_run h.cfgWf hf]
    exact (h.issue port docs).exists_exec i
  · exact ⟨_, step_of_illegal h.cfgWf hf⟩
  · exact ⟨_, step_of_wait h.cfgWf hf⟩

end Sys2Proof.Machine

/-! The serializer (R160 to R170): the payload and the frame of a message under R30, and what `SERIALIZE` and `GET_OUT`
answer. -/

namespace Sys2Proof.Machine

section Serializing

variable {s t : State} {o : List Byte} {n : Nat}

/-- The encoded payload of a message has its payload length (R30, R164). -/
theorem MsgInv.encodePayload_length (h : MsgInv s.cfg s.msg) (ht : s.msg.tag ≠ .none) :
    s.encodePayload.length = s.msg.plen.toNat := by
  unfold State.encodePayload
  cases hg : s.msg.tag with
  | none => exact absurd hg ht
  | sar => exact fitTo_length _ _
  | stby => exact (h.stbyLen hg).symm
  | hb =>
    rw [h.hbLen hg]
    cases hm : s.cfg.hbEncMode <;> simp [hbEncode, hm]

/-- So it fills the payload field of the frame exactly (R164). -/
theorem MsgInv.serialized_eq (h : MsgInv s.cfg s.msg) (ht : s.msg.tag ≠ .none) :
    s.serialized = frameBytes s.msg.props s.msg.cmd s.msg.plen s.encodePayload := by
  rw [State.serialized, fitTo_of_length (h.encodePayload_length ht)]

theorem execSerialize_unpopulated (hf : s.fault = 0x00#8) (hp : s.populated = false) :
    execSerialize s = .next (s.raiseFault faultSerialize) := by
  rw [execSerialize, if_neg (not_not_intro hf), if_pos hp]

theorem execSerialize_populated (hf : s.fault = 0x00#8) (hp : s.populated = true)
    (hl : 12 + s.msg.plen.toNat ≤ s.cfg.bufCap) : execSerialize s = .next (s.putOut s.serialized) := by
  rw [execSerialize, if_neg (not_not_intro hf), if_neg (by simp [hp]), if_neg hl.not_gt]

/-- A `SERIALIZE` that leaves no fault has put the frame out. -/
theorem execSerialize_live (h : execSerialize s = .next t) (hf : t.fault = 0x00#8) :
    s.fault = 0x00#8 ∧ s.populated = true ∧ 12 + s.msg.plen.toNat ≤ s.cfg.bufCap ∧ t = s.putOut s.serialized := by
  rcases execSerialize_next h with ⟨hs, rfl⟩ | ⟨_, _, rfl⟩ | hput
  · exact absurd hf hs
  · exact absurd hf (by decide : faultSerialize ≠ 0x00#8)
  · exact hput

/-- A `SERIALIZE` that returns bytes has put the frame out. -/
theorem execSerialize_output (h : execSerialize s = .next t) (hr : t.ret = .output o n) :
    s.fault = 0x00#8 ∧ s.populated = true ∧ t = s.putOut o ∧ o = s.serialized ∧ n = o.length := by
  rcases execSerialize_next h with ⟨_, rfl⟩ | ⟨_, _, rfl⟩ | ⟨hf, hp, _, rfl⟩
  · cases hr
  · cases hr
  · cases hr
    exact ⟨hf, hp, rfl, rfl, rfl⟩

theorem execGetOut_available (hf : s.fault = 0x00#8) (hv : s.out.outValid = true) :
    execGetOut s = .next (s.returns (.output (s.out.ob.readRange 0 s.out.outLen) s.out.outLen)) := by
  rw [execGetOut, hv, State.access_available hf]

theorem execGetOut_unavailable (hf : s.fault = 0x00#8) (hv : s.out.outValid = false) :
    execGetOut s = .next (s.raiseFault faultRead) := by
  rw [execGetOut, hv, State.access_unavailable hf]

theorem Memory.byteAt_readRange (m : Memory) {a k i : Nat} (h : i < k) :
    byteAt (m.readRange a k) i = m.read (a + i) := by
  induction k generalizing a i with
  | zero => exact absurd h (Nat.not_lt_zero i)
  | succ k ih =>
    cases i with
    | zero => rfl
    | succ i => rw [Memory.readRange, byteAt_cons_succ, ih (by omega), Nat.add_right_comm, Nat.add_assoc]

/-- `OB` holds the bytes put out at their own offsets (R166). -/
theorem State.putOut_read (s : State) (o : List Byte) (a : Nat) : (s.putOut o).out.ob.read a = byteAt o a := by
  have h := Memory.read_ofBytes 0 a o
  rwa [Nat.zero_add] at h

end Serializing

/-! The statements about `SERIALIZE` and `GET_OUT`. -/

/-- Settles O46: the fields of `frameBytes`, whose payload is the encoded one under R30 and which fits under R31. -/
theorem serializeLaysOutFrame : Obligations.SerializeLaysOutFrame := by
  unfold Obligations.SerializeLaysOutFrame
  refine ⟨rfl, fun s => ⟨execSerialize_faulted, fun hf hp => ?_, fun hs hf hstate hprops hcmd htag => ?_⟩⟩
  · rw [← State.populated_iff, Bool.not_eq_true] at hp
    exact execSerialize_unpopulated hf hp
  · have hp : s.populated = true := State.populated_iff.mpr ⟨hstate, hprops, hcmd, htag⟩
    have hframe := hs.msg.serialized_eq htag
    refine ⟨s.serialized, (s.putOut s.serialized).out, ?_, s.serialized_length, rfl, s.serialized_length,
      s.putOut_read s.serialized, rfl, ?_⟩
    · rw [← s.serialized_length]
      exact execSerialize_populated hf hp (hs.serialized_fits hp)
    · rw [hframe, frameBytes_header, frameBytes_payload]
      exact ⟨rd16_frameBytes_hck _ _ _ _, rd16_frameBytes_pck _ _ _ _, rd16_frameBytes_props _ _ _ _,
        rd16_frameBytes_cmd _ _ _ _, rd16_frameBytes_len _ _ _ _, rfl⟩

/-- Settles O48: putting the frame out leaves the message it is made of, so the second `SERIALIZE` puts the same out. -/
theorem serializeTwiceIsSerializeOnce : Obligations.SerializeTwiceIsSerializeOnce := by
  unfold Obligations.SerializeTwiceIsSerializeOnce
  intro s t h hf
  obtain ⟨_, hp, hl, rfl⟩ := execSerialize_live h hf
  exact execSerialize_populated hf hp hl

/-- Settles O49: the three ends of an accessor, with the bytes of `OB` as its value. -/
theorem getOutReturnsOutputBuffer : Obligations.GetOutReturnsOutputBuffer := by
  unfold Obligations.GetOutReturnsOutputBuffer
  refine ⟨rfl, fun s => ⟨fun hf hv => ?_, execGetOut_unavailable, fun hf => congrArg _ (State.access_faulted hf _ _)⟩⟩
  refine ⟨_, Memory.readRange_length _ 0 _, fun a ha => ?_, execGetOut_available hf hv⟩
  rw [Memory.byteAt_readRange _ ha, Nat.zero_add]

/-- Settles O50: `OB` holds the bytes `SERIALIZE` returned, and `GET_OUT` reads them back. -/
theorem getOutReturnsLastSerialization : Obligations.GetOutReturnsLastSerialization := by
  unfold Obligations.GetOutReturnsLastSerialization
  intro s t u o n h hr hu hf
  obtain ⟨_, _, rfl, _, rfl⟩ := execSerialize_output h hr
  rw [State.putOut_out] at hu
  have hget := execGetOut_available hf (by rw [hu])
  rw [hu, Memory.readRange_ofBytes] at hget
  exact hget

end Sys2Proof.Machine

/-! A frame fed from `idx = 0` to its last byte (R120 to R133, R140), and R169's round trip. -/

namespace Sys2Proof.Machine

section WholeFrame

variable {s t u v : State} {f pay : List Byte} {n : Nat} {p c len : U16} {b d : Byte}

theorem Captured.capPck_eq (h : Captured f n v) (hn : 6 ≤ n) : v.parser.capPck = rd16 f 4 := by
  rw [h.inv.pckCaptured (by rw [h.holding.idx]; omega), h.holding.rd16_eq (by omega)]

theorem Captured.capProps_eq (h : Captured f n v) (hn : 8 ≤ n) : v.parser.capProps = rd16 f 6 := by
  rw [h.inv.propsCaptured (by rw [h.holding.idx]; omega), h.holding.rd16_eq (by omega)]

/-- A frame stands in `SB` to its last byte, its fields captured (R125 to R131). -/
structure Received (p c len : U16) (pay : List Byte) (v : State) : Prop where
  props : v.parser.capProps = p
  cmd : v.parser.capCmd = c
  len : v.parser.capLen = len
  payload : v.payload = pay
  pck : cksum16 v.payload = v.parser.capPck

theorem byteAt_frameBytes_sig {i : Nat} (hi : i < 2) : byteAt (frameBytes p c len pay) i = sig := by
  match i, hi with
  | 0, _ | 1, _ => rfl

/-- The header of a frame with a known command and a length of its variant passes its checks (R129, R130). -/
theorem headerStatus_frameBytes {cfg : Config} (hl : lenBad cfg c len = false) :
    headerStatus cfg (rd16 (frameBytes p c len pay) 8) (rd16 (frameBytes p c len pay) 10)
      (rd16 (frameBytes p c len pay) 2) (((frameBytes p c len pay).drop 6).take 6) = 0x00#8 := by
  rw [rd16_frameBytes_cmd, rd16_frameBytes_len, rd16_frameBytes_hck, frameBytes_header]
  exact headerStatus_eq_zero.mpr ⟨hl, rfl⟩

/-- The bytes of such a frame before its last pass their checks. -/
theorem Accepts.of_frame {cfg : Config} (hk : known c = true) (hl : lenBad cfg c len = false)
    (hn : n < 12 + len.toNat) : Accepts cfg (frameBytes p c len pay) n where
  signature _ hi _ := byteAt_frameBytes_sig hi
  command _ := by rwa [rd16_frameBytes_cmd]
  header _ := headerStatus_frameBytes hl
  unfinished _ := by rwa [rd16_frameBytes_len]

theorem Captured.received (h : Captured (frameBytes p c len pay) (12 + len.toNat) v) (hpay : pay.length = len.toNat) :
    Received p c len pay v := by
  have hlen : v.parser.capLen = len := (h.capLen_eq (by omega)).trans (rd16_frameBytes_len p c len pay)
  have hpayload : v.payload = pay := by
    rw [State.payload, hlen, h.holding.readRange_eq le_rfl h.inString, frameBytes_payload, ← hpay, List.take_length]
  exact
    { props := (h.capProps_eq (by omega)).trans (rd16_frameBytes_props p c len pay)
      cmd := (h.capCmd_eq (by omega)).trans (rd16_frameBytes_cmd p c len pay)
      len := hlen
      payload := hpayload
      pck := by rw [hpayload, h.capPck_eq (by omega), rd16_frameBytes_pck] }

/-- The last byte of a frame whose header is good completes it (R131). -/
theorem Captured.checkByte_complete (h : Captured (frameBytes p c len pay) (12 + len.toNat) v)
    (hl : lenBad v.cfg c len = false) : v.checkByte = v.completeFrame := by
  have hidx := h.holding.idx
  refine State.checkByte_of_end (by omega) ?_ fun _ => ?_
  · rw [hidx, h.capLen_eq (by omega), rd16_frameBytes_len]
  · rw [h.headerStatus_eq (by omega)]
    exact headerStatus_frameBytes hl

/-- `FEED` of a string whose last byte, and no other, ends in `DONE` (R140, R141). -/
theorem Feeds.exec_feed_done (h : Feeds s f d t) (hf : s.fault = 0x00#8) (hp : t.parseByte b = .ok u)
    (hd : u.lastStatus &&& stDone ≠ 0x00#8) :
    exec (.feed (some (f ++ [b]))) s = .next (u.returns (.feed true (f.length + 1) [] (d ||| u.lastStatus))) := by
  rw [exec_feed_live hf, h.feedLoop_done hp hd, Nat.zero_add, BitVec.zero_or, outcomeOf_ok]

/-- A frame with a known command and a length of its variant, fed from `idx = 0`, is received whole; `FEED` returns what
its completion leaves, if that is `DONE`. -/
theorem exists_received (hs : BlockInv s) (hf : s.fault = 0x00#8) (hi : s.parser.idx = 0) (hk : known c = true)
    (hl : lenBad s.cfg c len = false) (hpay : pay.length = len.toNat) :
    ∃ v, Received p c len pay v ∧
      (v.completeFrame.lastStatus = stDone →
        exec (.feed (some (frameBytes p c len pay))) s =
          .next (v.completeFrame.returns (.feed true (12 + len.toNat) [] stDone))) := by
  obtain ⟨n, hn⟩ : ∃ n, n + 1 = 12 + len.toNat := ⟨11 + len.toNat, by omega⟩
  have hlen : (frameBytes p c len pay).length = n + 1 := by rw [frameBytes_length, hpay, hn]
  obtain ⟨t, ht⟩ := (Accepts.of_frame (p := p) (pay := pay) hk hl (by omega : n < _)).exists_reading hs hi (by omega)
  have hidx := ht.holding.idx
  have hv := ht.inv.accepted ht.holding (by omega) (by omega)
  have hp := State.parseByte_accepted (byteAt (frameBytes p c len pay) n) (by omega) ht.inv.idx_lt_bufCap
  rw [hn] at hv
  rw [hv.checkByte_complete (by rwa [State.accepted_cfg, ht.feeds.cfg_eq])] at hp
  refine ⟨_, hv.received hpay, fun hd => ?_⟩
  have hexec := ht.feeds.exec_feed_done hf hp (by rw [hd]; decide)
  rwa [← take_succ_eq_append_byteAt (by omega), List.take_of_length_le hlen.le, List.length_take, hlen,
    Nat.min_eq_left (Nat.le_succ n), hn, hd, BitVec.zero_or] at hexec

end WholeFrame

/-! Each payload read back (R169). -/

section RoundTrip

variable {s v : State} {cfg : Config}

/-- R185 undoes R186. -/
theorem byteAt_stbyEncode_ne_zero (f : Bool) : (byteAt (stbyEncode f) 0 != 0x00#8) = f := by
  cases f <;> decide

/-- The five fields of a record at their offsets (R81). -/
theorem hbDecode_hbFieldsSymmetric (r : HbRecord) : hbDecode (hbFieldsSymmetric r) = r := by
  have hserial : rd32 (hbFieldsSymmetric r) 4 = r.serial :=
    rd32_after (a := le32 r.epoch) rfl r.serial (le16 r.volt ++ [r.temp, r.mode])
  have hvolt : rd16 (hbFieldsSymmetric r) 8 = r.volt :=
    rd16_after (a := le32 r.epoch ++ le32 r.serial) rfl r.volt [r.temp, r.mode]
  have hepoch : rd32 (hbFieldsSymmetric r) 0 = r.epoch :=
    rd32_le32 r.epoch (le32 r.serial ++ le16 r.volt ++ [r.temp, r.mode])
  rw [hbDecode, hepoch, hserial, hvolt]
  rfl

/-- The padding behind the record is ignored (R188). -/
theorem hbDecode_fitTo {k : Nat} (hk : 12 ≤ k) (bs : List Byte) : hbDecode (fitTo k bs) = hbDecode bs := by
  simp only [hbDecode, rd32_fitTo (show 0 + 3 < k by omega), rd32_fitTo (show 4 + 3 < k by omega),
    rd16_fitTo (show 8 + 1 < k by omega), byteAt_fitTo (show 10 < k by omega), byteAt_fitTo (show 11 < k by omega)]

/-- R188 undoes R189. -/
theorem hbDecode_hbEncode_symmetric (h12 : 12 ≤ cfg.hbLen) (hm : cfg.hbEncMode = .symmetric) (r : HbRecord) :
    hbDecode (hbEncode cfg r) = r := by
  rw [hbEncode, hm]
  exact (hbDecode_fitTo h12 _).trans (hbDecode_hbFieldsSymmetric r)

/-- The arms of the two messages are the same, of a Heartbeat under `SYMMETRIC` only (R169). -/
structure SamePayload (cfg : Config) (g : Tag) (m n : MsgRegs) : Prop where
  sar : g = .sar → m.sarDoc = n.sarDoc
  stby : g = .stby → m.stby = n.stby
  hb : g = .hb → cfg.hbEncMode = .symmetric → m.hb = n.hb

/-- R169's conditions are for an active arm, and under R30 they give the length rule of the parser (R129). -/
theorem RoundTrips.lenBad_eq_false (h : RoundTrips s) (hs : MsgInv s.cfg s.msg) :
    lenBad s.cfg s.msg.cmd s.msg.plen = false := by
  unfold RoundTrips at h
  cases hg : s.msg.tag <;> rw [hg] at h
  case none => exact h.elim
  all_goals
    obtain ⟨_, hv⟩ := hs.tagOfCmd (by rw [hg]; nofun)
    rw [lenBad, hv, hg]
  case sar =>
    obtain ⟨_, hlimit, _⟩ := h
    exact decide_eq_false (by omega)
  case stby => exact decide_eq_false (not_not_intro (hs.stbyLen hg))
  case hb => exact decide_eq_false (not_not_intro (hs.hbLen hg))

/-- The payload of a message that meets R169's conditions is decoded to its own arm and committed (R133). -/
theorem RoundTrips.completeFrame (h : RoundTrips s) (hs : MsgInv s.cfg s.msg) (h12 : 12 ≤ s.cfg.hbLen)
    (hv : Received s.msg.props s.msg.cmd s.msg.plen s.encodePayload v) :
    ∃ m, v.completeFrame = (v.setIdx 0).commit s.msg.tag m ∧ SamePayload s.cfg s.msg.tag m s.msg := by
  have hck := hv.pck
  have hpay := hv.payload
  have hcmd : s.msg.tag ≠ .none → variantOf v.parser.capCmd = s.msg.tag := fun hg =>
    hv.cmd ▸ (hs.tagOfCmd hg).2
  unfold RoundTrips at h
  unfold State.encodePayload at hpay
  cases hg : s.msg.tag <;> rw [hg] at h hpay hcmd
  case none => exact h.elim
  case sar =>
    obtain ⟨hlen, _, hround⟩ := h
    have hparse : Config.jsonParse v.payload = some s.msg.sarDoc := by
      rwa [hpay, sarEncode, fitTo_of_length hlen]
    exact ⟨_, (State.completeFrame_of_sar hck (variantOf_eq_sar.mp (hcmd nofun))).trans
      (State.decodeSar_of_some hparse), fun _ => rfl, nofun, nofun⟩
  case stby =>
    refine ⟨_, State.completeFrame_of_stby hck (variantOf_eq_stby.mp (hcmd nofun)), nofun, fun _ => ?_, nofun⟩
    rw [hpay]
    exact byteAt_stbyEncode_ne_zero s.msg.stby
  case hb =>
    refine ⟨_, State.completeFrame_of_hb hck (variantOf_eq_hb.mp (hcmd nofun)), nofun, nofun, fun _ hm => ?_⟩
    rw [hpay]
    exact hbDecode_hbEncode_symmetric h12 hm s.msg.hb

end RoundTrip

/-- Settles O53: the frame is received whole, and its payload decodes to the arm it was encoded from. -/
theorem serializeThenFeedRoundTrips : Obligations.SerializeThenFeedRoundTrips := by
  unfold Obligations.SerializeThenFeedRoundTrips
  intro s t o n hs hround hi hser hret
  obtain ⟨hf, hp, rfl, rfl, rfl⟩ := execSerialize_output hser hret
  obtain ⟨_, _, hcmdW, htag⟩ := State.populated_iff.mp hp
  obtain ⟨h12, _⟩ := s.cfg.wf_iff.mp hs.cfgWf
  obtain ⟨v, hv, hfeed⟩ := exists_received (p := s.msg.props) (hs.exec .serialize _ hser) hf hi
    (hs.msg.cmdKnown hcmdW) (hround.lenBad_eq_false hs.msg) (hs.msg.encodePayload_length htag)
  obtain ⟨m, hm, hpay⟩ := hround.completeFrame hs.msg h12 hv
  rw [hm, ← hs.msg.serialized_eq htag, ← s.serialized_length] at hfeed
  exact ⟨_, hfeed rfl, rfl, rfl, rfl, rfl, rfl, rfl, hv.props, hv.cmd, hv.len, rfl, hpay.sar, hpay.stby, hpay.hb⟩

end Sys2Proof.Machine

/-! The payload variants (R181 to R193): what each frame command commits, and the bytes of each encoder. -/

namespace Sys2Proof.Machine

section FrameCommandRun

variable {s : State}

/-- SetSarMode on its complete frame (R181). -/
theorem exec_setSarMode_ready (hf : s.fault = 0x00#8) (hr : s.frameReady cmdSar = true) :
    exec .setSarMode s = .next (s.takeFrame.decodeSar s.payload) :=
  congrArg _ (State.frameCommand_ready hf hr _)

/-- SetStandbyState on its complete frame (R185). -/
theorem exec_setStandbyState_ready (hf : s.fault = 0x00#8) (hr : s.frameReady cmdStby = true) :
    exec .setStandbyState s = .next (s.takeFrame.decodeStby s.payload) :=
  congrArg _ (State.frameCommand_ready hf hr _)

/-- Heartbeat on its complete frame (R188). -/
theorem exec_heartbeat_ready (hf : s.fault = 0x00#8) (hr : s.frameReady cmdHb = true) :
    exec .heartbeat s = .next (s.takeFrame.decodeHb s.payload) :=
  congrArg _ (State.frameCommand_ready hf hr _)

/-- R129's rule for the variant STBY. -/
theorem lenBad_stby {cfg : Config} {len : U16} : lenBad cfg cmdStby len = false ↔ len.toNat = 1 := by
  rw [lenBad, variantOf_eq_stby.mpr rfl, decide_eq_false_iff_not, not_not]

/-- The payload byte of a complete SetStandbyState frame is byte 12 of `SB` (R57, R129). -/
theorem State.byteAt_payload_of_stby (hr : s.frameReady cmdStby = true) : byteAt s.payload 0 = s.parser.sb.read 12 := by
  obtain ⟨_, hcmd, hgood, _⟩ := State.frameReady_iff.mp hr
  rw [hcmd, lenBad_stby] at hgood
  exact Memory.byteAt_readRange _ (by omega)

end FrameCommandRun

section Encoders

/-- A byte string that fits is filled up with zeros. -/
theorem fitTo_of_length_le {n : Nat} {bs : List Byte} (h : bs.length ≤ n) :
    fitTo n bs = bs ++ List.replicate (n - bs.length) 0x00#8 := by
  rw [fitTo, List.take_of_length_le h]

/-- A fitted byte string by the shorter of its own length and the one asked for (R182, R190). -/
theorem fitTo_eq_min (n : Nat) (bs : List Byte) :
    fitTo n bs = bs.take (min bs.length n) ++ List.replicate (n - min bs.length n) 0x00#8 := by
  rw [fitTo, Nat.min_comm, ← List.take_eq_take_min, ← Nat.sub_eq_sub_min]

@[simp] theorem hbFieldsSymmetric_length (r : HbRecord) : (hbFieldsSymmetric r).length = 12 := rfl

@[simp] theorem hbFieldsLegacy_length (r : HbRecord) : (hbFieldsLegacy r).length = 16 := rfl

/-! `encodePayload` by the active arm (R160, R164). -/

variable {s : State}

theorem State.encodePayload_of_stby (hg : s.msg.tag = .stby) : s.encodePayload = stbyEncode s.msg.stby := by
  rw [State.encodePayload, hg]

theorem State.encodePayload_of_sar (hg : s.msg.tag = .sar) :
    s.encodePayload = fitTo s.msg.plen.toNat (Config.jsonRender s.msg.sarDoc) := by
  rw [State.encodePayload, hg, sarEncode]

theorem State.encodePayload_of_hb (hg : s.msg.tag = .hb) : s.encodePayload = hbEncode s.cfg s.msg.hb := by
  rw [State.encodePayload, hg]

/-! The two Heartbeat encoders (R189, R190). -/

variable {cfg : Config}

theorem hbEncode_symmetric (hm : cfg.hbEncMode = .symmetric) (r : HbRecord) :
    hbEncode cfg r = fitTo cfg.hbLen (hbFieldsSymmetric r) := by
  rw [hbEncode, hm]

theorem hbEncode_legacyDup (hm : cfg.hbEncMode = .legacyDup) (r : HbRecord) :
    hbEncode cfg r = fitTo cfg.hbLen (hbFieldsLegacy r) := by
  rw [hbEncode, hm]

/-- A u32 begins with the bytes of its low half (R12). -/
theorem le32_eq_le16_append (v : U32) :
    le32 v = le16 (v.extractLsb' 0 16) ++ [v.extractLsb' 16 8, v.extractLsb' 24 8] := by
  simp [le32, le16, BitVec.extractLsb'_extractLsb'_of_le]

/-- R193: at the offsets of R81 stand the epoch, the epoch again and the four bytes of the serial number. -/
theorem hbDecode_hbFieldsLegacy (r : HbRecord) :
    hbDecode (hbFieldsLegacy r) =
      { epoch := r.epoch, serial := r.epoch, volt := r.serial.extractLsb' 0 16
        temp := r.serial.extractLsb' 16 8, mode := r.serial.extractLsb' 24 8 } := by
  have hepoch : rd32 (hbFieldsLegacy r) 0 = r.epoch :=
    rd32_le32 r.epoch (le32 r.epoch ++ le32 r.serial ++ le16 r.volt ++ [r.temp, r.mode])
  have hserial : rd32 (hbFieldsLegacy r) 4 = r.epoch :=
    rd32_after (a := le32 r.epoch) rfl r.epoch (le32 r.serial ++ le16 r.volt ++ [r.temp, r.mode])
  have hvolt : rd16 (hbFieldsLegacy r) 8 = r.serial.extractLsb' 0 16 := by
    rw [hbFieldsLegacy, le32_eq_le16_append r.serial]
    exact rd16_after (a := le32 r.epoch ++ le32 r.epoch) rfl _
      ([r.serial.extractLsb' 16 8, r.serial.extractLsb' 24 8] ++ le16 r.volt ++ [r.temp, r.mode])
  rw [hbDecode, hepoch, hserial, hvolt]
  rfl

end Encoders

/-! The statements about the payload variants. -/

/-- Settles O41: each command decodes the payload in `SB`, and STBY's payload is its one byte there (R129). -/
theorem frameCommandsDecodePayload : Obligations.FrameCommandsDecodePayload := by
  unfold Obligations.FrameCommandsDecodePayload
  rintro s t hf rfl
  refine ⟨fun hr => ?_, exec_heartbeat_ready hf, fun hr d hd => ?_, fun hr hd => ?_⟩
  · rw [exec_setStandbyState_ready hf hr, State.decodeStby, State.byteAt_payload_of_stby hr, decide_not]
    rfl
  · rw [exec_setSarMode_ready hf hr, State.decodeSar_of_some (pay := s.payload) hd]
    rfl
  · rw [exec_setSarMode_ready hf hr, State.decodeSar_of_none (pay := s.payload) hd]
    rfl

/-- Settles O47: every encoder but STBY's cuts or zero-fills its byte string, and the symmetric one is never cut. -/
theorem payloadEncodings : Obligations.PayloadEncodings := by
  unfold Obligations.PayloadEncodings
  intro s
  refine ⟨State.encodePayload_of_stby, fun hg => ?_, fun hg h12 hm => ?_, fun hg hm => ?_⟩
  · rw [State.encodePayload_of_sar hg, fitTo_eq_min]
  · rw [State.encodePayload_of_hb hg, hbEncode_symmetric hm, fitTo_of_length_le h12]
    rfl
  · rw [State.encodePayload_of_hb hg, hbEncode_legacyDup hm, fitTo, hbFieldsLegacy_length, Nat.sub_eq_sub_min]
    rfl

/-- Settles O52: the decoder reads no byte from offset 12 on (R188), so neither the padding nor the cut at 15 matters. -/
theorem heartbeatCodecRoundTrip : Obligations.HeartbeatCodecRoundTrip := by
  unfold Obligations.HeartbeatCodecRoundTrip
  refine fun cfg r h12 => ⟨fun hm => hbDecode_hbEncode_symmetric h12 hm r, fun hm _ => ?_⟩
  rw [hbEncode_legacyDup hm, hbDecode_fitTo h12, hbDecode_hbFieldsLegacy]

end Sys2Proof.Machine

/-! Message access (R200 to R219): what each setter stores, and what each accessor reads. First the operands: the signed
readings of R13, and a word by its value. -/

namespace Sys2Proof.Machine

section AccessValues

/-- A word is made of its value. -/
theorem ofNat_eq_of_toNat {w n : Nat} {x : BitVec w} (h : x.toNat = n) : BitVec.ofNat w n = x := by
  rw [← h, BitVec.ofNat_toNat, BitVec.setWidth_eq]

theorem s16_eq (v : U16) : s16 v = if v.toNat < 0x8000 then (v.toNat : Int) else v.toNat - 0x10000 := by
  rw [s16, BitVec.toInt_eq_toNat_cond]
  exact if_congr (by omega) rfl rfl

theorem s8_eq (v : Byte) : s8 v = if v.toNat < 0x80 then (v.toNat : Int) else v.toNat - 0x100 := by
  rw [s8, BitVec.toInt_eq_toNat_cond]
  exact if_congr (by omega) rfl rfl

theorem propPriority_eq (v : U16) : propPriority v = BitVec.ofNat 4 (v.toNat % 16) :=
  (ofNat_eq_of_toNat (propPriority_toNat v)).symm

theorem propAck_eq (v : U16) : propAck v = BitVec.ofNat 2 (v.toNat / 16 % 4) :=
  (ofNat_eq_of_toNat (propAck_toNat v)).symm

theorem propVersion_eq (v : U16) : propVersion v = BitVec.ofNat 8 (v.toNat / 64 % 256) :=
  (ofNat_eq_of_toNat (propVersion_toNat v)).symm

/-- The two top bits need no remainder (R74). -/
theorem propReserved_eq (v : U16) : propReserved v = BitVec.ofNat 2 (v.toNat / 16384) := by
  have := v.isLt
  exact (ofNat_eq_of_toNat ((propReserved_toNat v).trans (by omega))).symm

end AccessValues

/-! The setters (R200 to R205). -/

section Setters

variable {s : State} {g : Tag} {m : MsgRegs}

/-- A payload setter under a command of its variant. -/
theorem State.setPayload_accepted (hf : s.fault = 0x00#8) (ha : s.accepts g = true) :
    s.unlessFaulted .refused (if s.accepts g then s.building m else s.raiseFault faultVariant) = s.building m := by
  rw [State.unlessFaulted_live hf, if_pos ha]

/-- A payload setter under another command, or none. -/
theorem State.setPayload_mismatch (hf : s.fault = 0x00#8) (ha : ¬s.accepts g = true) :
    s.unlessFaulted .refused (if s.accepts g then s.building m else s.raiseFault faultVariant) =
      s.raiseFault faultVariant := by
  rw [State.unlessFaulted_live hf, if_neg ha]

theorem State.accepts_sar : s.accepts .sar = true ↔ s.msg.cmdW = true ∧ s.msg.cmd = 0xFF03#16 := by
  rw [State.accepts_iff, variantOf_eq_sar, cmdSar]

theorem State.accepts_stby : s.accepts .stby = true ↔ s.msg.cmdW = true ∧ s.msg.cmd = 0xFF05#16 := by
  rw [State.accepts_iff, variantOf_eq_stby, cmdStby]

theorem State.accepts_hb : s.accepts .hb = true ↔ s.msg.cmdW = true ∧ s.msg.cmd = 0xFF08#16 := by
  rw [State.accepts_iff, variantOf_eq_hb, cmdHb]

/-- `SET_CMD` keeps the tag exactly when the code is of the active variant (R201). -/
theorem setCmdTag_eq (c : U16) (g : Tag) :
    (if g ≠ .none ∧ variantOf c ≠ g then Tag.none else g) = if g = variantOf c then g else .none := by
  by_cases hg : g = variantOf c
  · rw [if_neg fun h => h.2 hg.symm, if_pos hg]
  · by_cases hn : g = .none
    · rw [if_neg fun h => h.1 hn, if_neg hg, hn]
    · rw [if_pos ⟨hn, Ne.symm hg⟩, if_neg hg]

theorem execSetCmd_known {c : U16} (hf : s.fault = 0x00#8) (hk : known c = true) :
    execSetCmd c s =
      .next
        (s.building
          { s.msg with
            cmd := c, cmdW := true
            tag := if s.msg.tag = variantOf c then s.msg.tag else .none }) := by
  rw [execSetCmd, State.unlessFaulted_live hf, if_neg (by simp [hk]), setCmdTag_eq]

theorem execSetCmd_unknown {c : U16} (hf : s.fault = 0x00#8) (hk : known c = false) :
    execSetCmd c s = .next (s.raiseFault faultUnknownCmd) := by
  rw [execSetCmd, State.unlessFaulted_live hf, if_pos hk]

end Setters

/-! The accessors (R206 to R217): which register each needs, and what each can do. -/

section Accessors

variable {s : State} {m : MsgRegs} {i : Instr}

/-- The accessors of MSG that can fault (R207 to R217). -/
def accessors : List Instr :=
  [.getProps, .getPriority, .getAck, .getVersion, .getReserved, .getCmd, .getLen, .getSar, .getSarText, .getStandby,
    .getHeartbeat]

/-- The accessors of the properties. -/
def propAccessors : List Instr :=
  [.getProps, .getPriority, .getAck, .getVersion, .getReserved]

/-- The accessors that need no particular payload. -/
def commonAccessors : List Instr :=
  propAccessors ++ [.getCmd, .getLen]

/-- The accessors of the payload `g`. -/
def armAccessors : Tag → List Instr
  | .none => []
  | .sar => [.getSar, .getSarText]
  | .stby => [.getStandby]
  | .hb => [.getHeartbeat]

/-- R206: whether the register that an accessor reads holds a value. -/
def MsgRegs.holds (m : MsgRegs) : Instr → Bool
  | .getProps | .getPriority | .getAck | .getVersion | .getReserved => m.propsW
  | .getCmd => m.cmdW
  | .getLen => decide (m.tag ≠ .none)
  | .getSar | .getSarText => decide (m.tag = .sar)
  | .getStandby => decide (m.tag = .stby)
  | .getHeartbeat => decide (m.tag = .hb)
  | _ => false

theorem propAccessors_subset : propAccessors ⊆ accessors := by decide

theorem commonAccessors_subset : commonAccessors ⊆ accessors := by decide

theorem armAccessors_subset (g : Tag) : armAccessors g ⊆ accessors := by
  cases g <;> decide

/-- With no message set no accessor has a value. -/
theorem MsgRegs.holds_of_unset (hp : m.propsW = false) (hc : m.cmdW = false) (ht : m.tag = .none) (i : Instr) :
    m.holds i = false := by
  unfold MsgRegs.holds
  split <;> simp [hp, hc, ht]

theorem MsgRegs.holds_prop (m : MsgRegs) : ∀ i ∈ propAccessors, m.holds i = m.propsW := by
  simp [propAccessors, MsgRegs.holds]

/-- The accessors that need no particular payload have a value where all they read is set. -/
theorem MsgRegs.holds_common (hp : m.propsW = true) (hc : m.cmdW = true) (ht : m.tag ≠ .none) :
    ∀ i ∈ commonAccessors, m.holds i = true := by
  simp [commonAccessors, propAccessors, MsgRegs.holds, hp, hc, ht]

/-- The accessors of the active arm have a value. -/
theorem MsgRegs.holds_arm {g : Tag} (hg : m.tag = g) : ∀ i ∈ armAccessors g, m.holds i = true := by
  cases g <;> simp [armAccessors, MsgRegs.holds, hg]

/-- All that an accessor does (R206 to R217): `access` by the register it reads, with a value that is no fault. -/
theorem exec_accessor (s : State) (hi : i ∈ accessors) :
    ∃ r, r ≠ .faulted ∧ r ≠ .refused ∧ exec i s = .next (s.access (s.msg.holds i) r) := by
  cases i with
  | getProps | getPriority | getAck | getVersion | getReserved | getCmd | getLen | getSar | getSarText | getStandby
  | getHeartbeat => refine ⟨_, ?_, ?_, rfl⟩ <;> exact nofun
  | _ => simp [accessors] at hi

theorem State.access_set {available : Bool} (hf : s.fault = 0x00#8) (ha : available = true) (r : HostResult) :
    s.access available r = s.returns r :=
  ha ▸ State.access_available hf r

theorem exec_accessor_set (hi : i ∈ accessors) (hf : s.fault = 0x00#8) (hh : s.msg.holds i = true) :
    ∃ r, r ≠ .faulted ∧ r ≠ .refused ∧ exec i s = .next (s.returns r) := by
  obtain ⟨r, hr, hr', he⟩ := exec_accessor s hi
  exact ⟨r, hr, hr', he.trans (congrArg _ (State.access_set hf hh r))⟩

theorem exec_accessor_unset (hi : i ∈ accessors) (hf : s.fault = 0x00#8) (hh : s.msg.holds i = false) :
    exec i s = .next (s.raiseFault faultRead) := by
  obtain ⟨r, _, _, he⟩ := exec_accessor s hi
  rw [he, hh, State.access_unavailable hf]

theorem exec_accessor_faulted (hi : i ∈ accessors) (hf : s.fault ≠ 0x00#8) :
    exec i s = .next (s.returns .refused) := by
  obtain ⟨r, _, _, he⟩ := exec_accessor s hi
  rw [he, State.access_faulted hf]

theorem State.returns_sameBlock (s : State) (r : HostResult) : SameBlock s (s.returns r) := rfl

/-- An accessor's ends but the fault write the result alone (R219). -/
theorem State.access_sameBlock {available : Bool} {r : HostResult} (h : (s.access available r).ret ≠ .faulted) :
    SameBlock s (s.access available r) := by
  rcases s.access_cases available r with ⟨_, he⟩ | ⟨_, _, he⟩ | ⟨_, _, he⟩ <;> rw [he] at h ⊢
  · exact s.returns_sameBlock _
  · exact s.returns_sameBlock _
  · exact absurd rfl h

/-- An active payload that is neither SAR nor STBY is HB (R27). -/
theorem armAccessors_eq {g : Tag} (hg : g ≠ .none) :
    (if g = .sar then [Instr.getSar, .getSarText] else if g = .stby then [Instr.getStandby] else [Instr.getHeartbeat]) =
      armAccessors g := by
  cases g with
  | none => exact absurd rfl hg
  | sar | stby | hb => rfl

end Accessors

/-! The statements about message access. -/

/-- Settles O20: the operand check, then the state check of every payload setter; `len` is the capped length's word. -/
theorem setSarStoresDocument : Obligations.SetSarStoresDocument := by
  unfold Obligations.SetSarStoresDocument
  intro s d len hlen
  refine ⟨rfl, rfl, fun hf hw hc => ?_, fun hf hn => ?_, fun hf => ?_, fun hf o => ?_⟩
  · rw [← ofNat_eq_of_toNat hlen]
    exact congrArg _ (State.setPayload_accepted hf (State.accepts_sar.mpr ⟨hw, hc⟩))
  · exact congrArg _ (State.setPayload_mismatch hf (mt State.accepts_sar.mp hn))
  · exact congrArg _ (State.unlessFaulted_live hf _ _)
  · exact congrArg _ (State.unlessFaulted_faulted hf _ _)

/-- Settles O21: the state check of every payload setter. -/
theorem setStandbyStoresFlag : Obligations.SetStandbyStoresFlag := by
  unfold Obligations.SetStandbyStoresFlag
  intro s f
  exact ⟨rfl, fun hf hw hc => congrArg _ (State.setPayload_accepted hf (State.accepts_stby.mpr ⟨hw, hc⟩)),
    fun hf hn => congrArg _ (State.setPayload_mismatch hf (mt State.accepts_stby.mp hn)),
    fun hf => congrArg _ (State.unlessFaulted_faulted hf _ _)⟩

/-- Settles O22: the state check of every payload setter; `len` is `HB_LEN`'s word. -/
theorem setHeartbeatStoresRecord : Obligations.SetHeartbeatStoresRecord := by
  unfold Obligations.SetHeartbeatStoresRecord
  intro s e n v t m len hlen
  refine ⟨rfl, fun hf hw hc => ?_, fun hf hn => ?_, fun hf => ?_⟩
  · rw [← ofNat_eq_of_toNat hlen]
    exact congrArg _ (State.setPayload_accepted hf (State.accepts_hb.mpr ⟨hw, hc⟩))
  · exact congrArg _ (State.setPayload_mismatch hf (mt State.accepts_hb.mp hn))
  · exact congrArg _ (State.unlessFaulted_faulted hf _ _)

/-- Settles O18: `SET_PROPS` has no check but the fault register (R236). -/
theorem setPropsStoresRawValue : Obligations.SetPropsStoresRawValue := by
  unfold Obligations.SetPropsStoresRawValue
  intro s v
  exact ⟨rfl, fun hf => congrArg _ (State.unlessFaulted_live hf _ _),
    fun hf => congrArg _ (State.unlessFaulted_faulted hf _ _)⟩

/-- Settles O19: the code's membership in `KNOWN` decides, and `setCmdTag_eq` says what is left of the payload. -/
theorem setCmdStoresKnownCode : Obligations.SetCmdStoresKnownCode := by
  unfold Obligations.SetCmdStoresKnownCode
  intro s c
  refine ⟨rfl, fun hf hk => execSetCmd_known hf (mem_known.mp hk), fun hf hk => ?_,
    fun hf => congrArg _ (State.unlessFaulted_faulted hf _ _)⟩
  rw [mem_known, Bool.not_eq_true] at hk
  exact execSetCmd_unknown hf hk

/-- Settles O14: `GET_STATUS` has no check at all. -/
theorem statusAlwaysReadable : Obligations.StatusAlwaysReadable := by
  unfold Obligations.StatusAlwaysReadable
  exact ⟨rfl, fun _ => rfl⟩

/-- Settles O23: each accessor's field is the quotient and remainder of `PROPS` at its bits (R74). -/
theorem propertyAccessorsReturnTheirBits : Obligations.PropertyAccessorsReturnTheirBits := by
  unfold Obligations.PropertyAccessorsReturnTheirBits
  refine ⟨⟨rfl, rfl, rfl, rfl, rfl⟩, fun s => ⟨fun hf hp => ?_, fun i hi => ⟨fun hf hp => ?_, fun hf => ?_⟩⟩⟩
  · rw [← propPriority_eq, ← propAck_eq, ← propVersion_eq, ← propReserved_eq]
    exact ⟨congrArg _ (State.access_set hf hp _), congrArg _ (State.access_set hf hp _),
      congrArg _ (State.access_set hf hp _), congrArg _ (State.access_set hf hp _),
      congrArg _ (State.access_set hf hp _)⟩
  · exact exec_accessor_unset (propAccessors_subset hi) hf ((s.msg.holds_prop i hi).trans hp)
  · exact exec_accessor_faulted (propAccessors_subset hi) hf

/-- Settles O24: a set `CMD` is known by the invariant (R30). -/
theorem commandAndLengthAccessorsReturnThem : Obligations.CommandAndLengthAccessorsReturnThem := by
  unfold Obligations.CommandAndLengthAccessorsReturnThem
  have hcmd : Instr.getCmd ∈ accessors := by decide
  have hlen : Instr.getLen ∈ accessors := by decide
  refine ⟨⟨rfl, rfl⟩, fun s => ⟨fun hf hw => ?_, fun hs hw => mem_known.mpr (hs.msg.cmdKnown hw), fun hf hw => ?_,
    fun hf ht => ?_, fun hf ht => ?_, fun hf => ?_⟩⟩
  · exact congrArg _ (State.access_set hf hw _)
  · exact exec_accessor_unset hcmd hf hw
  · exact congrArg _ (State.access_set hf (decide_eq_true ht) _)
  · exact exec_accessor_unset hlen hf (decide_eq_false (not_not_intro ht))
  · exact ⟨exec_accessor_faulted hcmd hf, exec_accessor_faulted hlen hf⟩

/-- Settles O25: the tag decides, and a record's voltage and temperature are read as R13 says. -/
theorem payloadAccessorsReturnTheActiveArm : Obligations.PayloadAccessorsReturnTheActiveArm := by
  unfold Obligations.PayloadAccessorsReturnTheActiveArm
  refine ⟨⟨rfl, rfl, rfl, rfl⟩, fun s hf => ⟨fun ht => ?_, fun ht => ?_, fun ht => ?_, fun ht => ?_, fun ht => ?_,
    fun ht => ?_⟩⟩
  · exact ⟨congrArg _ (State.access_set hf (decide_eq_true ht) _),
      congrArg _ (State.access_set hf (decide_eq_true ht) _)⟩
  · exact congrArg _ (State.access_set hf (decide_eq_true ht) _)
  · rw [← s16_eq, ← s8_eq]
    exact congrArg _ (State.access_set hf (decide_eq_true ht) _)
  · exact ⟨exec_accessor_unset (by decide) hf (decide_eq_false ht),
      exec_accessor_unset (by decide) hf (decide_eq_false ht)⟩
  · exact exec_accessor_unset (by decide) hf (decide_eq_false ht)
  · exact exec_accessor_unset (by decide) hf (decide_eq_false ht)

/-- Settles O26: R30 says what is set in each message state, and R206 what an accessor needs set. -/
theorem readableFieldsFollowMessageState : Obligations.ReadableFieldsFollowMessageState := by
  unfold Obligations.ReadableFieldsFollowMessageState
  refine fun s hs hf => ⟨fun hstate i hi => ?_, fun hstate i hi => ?_⟩
  · obtain ⟨hp, hc, ht⟩ := hs.msg.emptyUnset hstate
    exact exec_accessor_unset hi hf (MsgRegs.holds_of_unset hp hc ht i)
  · obtain ⟨hp, hc, ht⟩ := hs.msg.validSet hstate
    rw [armAccessors_eq ht] at hi
    rcases List.mem_append.mp hi with hi | hi
    · exact exec_accessor_set (commonAccessors_subset hi) hf (MsgRegs.holds_common hp hc ht i hi)
    · exact exec_accessor_set (armAccessors_subset s.msg.tag hi) hf (MsgRegs.holds_arm rfl i hi)

/-- Settles O27: the fault is an accessor's only end that writes more than the result, and `GET_STATUS` has none. -/
theorem accessorsHaveNoSideEffects : Obligations.AccessorsHaveNoSideEffects := by
  unfold Obligations.AccessorsHaveNoSideEffects
  intro i s t hi h hr
  rcases List.mem_append.mp (show i ∈ accessors ++ [.getStatus] from hi) with hi | hi
  · obtain ⟨r, _, _, he⟩ := exec_accessor s hi
    cases he.symm.trans h
    exact State.access_sameBlock hr
  · cases List.mem_singleton.mp hi
    cases h
    exact s.returns_sameBlock _

end Sys2Proof.Machine

/-! Faults (R234 to R237): how an operation ends, faulted or not, and a code that is no operation's. -/

namespace Sys2Proof.Machine

section FaultEnds

variable {s t u : State} {i : Instr}

/-- R236 for every instruction but `RESET`: it ends in `s` but for the result, which is not "faulted". -/
theorem exec_faulted_returns (hf : s.fault ≠ 0x00#8) (hreset : i ≠ .reset) :
    ∃ r, r ≠ .faulted ∧ exec i s = .next (s.returns r) := by
  cases i with
  | pushByte b => exact ⟨.status stRefused, nofun, execPushByte_faulted hf b⟩
  | feed bs => exact ⟨.feed false 0 (bs.getD []) stRefused, nofun, execFeed_faulted hf bs⟩
  | getStatus => exact ⟨.blockStatus s.lastStatus s.msg.state s.fault, nofun, rfl⟩
  | reset => exact absurd rfl hreset
  | _ => exact ⟨.refused, nofun, exec_faulted hf nofun nofun nofun nofun⟩

theorem execPushByte_ret_ne_faulted {b : Byte} (h : exec (.pushByte b) s = .next t) : t.ret ≠ .faulted := by
  rcases execPushByte_next h with ⟨_, rfl⟩ | ⟨_, hp⟩
  · exact nofun
  · rw [(State.parseByte_ended hp).ret]
    exact nofun

/-- The codes of R234 that an operation of R85's table raises; `ILLEGAL_OP` is not one. -/
def operationFaults : List Byte :=
  [faultUnknownCmd, faultVariant, faultRead, faultSerialize, faultNull]

/-- R235: the operation begun in `s` took a fault, or it ends in `t` with a result that is not "faulted". -/
inductive FaultEnd (s t : State) : Prop where
  | raised {code : Byte} (hcode : code ∈ operationFaults) (ht : t = s.raiseFault code)
  | unfaulted (hret : t.ret ≠ .faulted)

theorem State.raiseFault_faultEnd (s : State) {code : Byte} (hcode : code ∈ operationFaults) :
    FaultEnd s (s.raiseFault code) :=
  .raised hcode rfl

theorem State.building_faultEnd (s : State) (m : MsgRegs) : FaultEnd s (s.building m) :=
  .unfaulted nofun

theorem State.returns_faultEnd (s : State) {r : HostResult} (hr : r ≠ .faulted) : FaultEnd s (s.returns r) :=
  .unfaulted hr

theorem FaultEnd.ite {p : Prop} [Decidable p] (ht : FaultEnd s t) (hu : FaultEnd s u) :
    FaultEnd s (if p then t else u) := by
  split
  · exact ht
  · exact hu

theorem FaultEnd.guarded (h : FaultEnd s t) : FaultEnd s (s.unlessFaulted .refused t) :=
  .ite (s.returns_faultEnd nofun) h

/-- The state check of the payload setters (R202 to R204). -/
theorem State.setPayload_faultEnd (s : State) (g : Tag) (m : MsgRegs) :
    FaultEnd s (s.unlessFaulted .refused (if s.accepts g then s.building m else s.raiseFault faultVariant)) :=
  .guarded (.ite (s.building_faultEnd m) (s.raiseFault_faultEnd (by decide)))

theorem State.access_faultEnd (s : State) (available : Bool) {r : HostResult} (hr : r ≠ .faulted) :
    FaultEnd s (s.access available r) :=
  .guarded (.ite (s.returns_faultEnd hr) (s.raiseFault_faultEnd (by decide)))

/-- A frame command decodes or finds no frame (log entry 9); it has no fault of its own. -/
theorem FaultEnd.frameCommand (c : U16) (hu : u.ret ≠ .faulted) :
    FaultEnd s (s.unlessFaulted .refused (if s.frameReady c then u else s.returns .none)) :=
  .guarded (.ite (.unfaulted hu) (s.returns_faultEnd nofun))

theorem State.decodeSar_ret_ne_faulted (s : State) (pay : List Byte) : (s.decodeSar pay).ret ≠ .faulted := by
  unfold State.decodeSar
  split <;> exact nofun

theorem execSetSar_faultEnd {d : Option JsonDoc} (h : execSetSar d s = .next t) : FaultEnd s t := by
  cases h
  cases d with
  | none => exact .guarded (s.raiseFault_faultEnd (by decide))
  | some doc => exact s.setPayload_faultEnd _ _

theorem execSerialize_faultEnd (h : execSerialize s = .next t) : FaultEnd s t := by
  rcases execSerialize_next h with ⟨_, rfl⟩ | ⟨_, _, rfl⟩ | ⟨_, _, _, rfl⟩
  · exact s.returns_faultEnd nofun
  · exact s.raiseFault_faultEnd (by decide)
  · exact .unfaulted nofun

/-- `FEED` faults on an absent operand alone: its loop returns "found" or "not found" (R140). -/
theorem execFeed_faultEnd {bs : Option (List Byte)} (h : execFeed bs s = .next t) : FaultEnd s t := by
  unfold execFeed at h
  split at h
  · cases h
    exact s.returns_faultEnd nofun
  · cases bs with
    | none =>
      cases h
      exact s.raiseFault_faultEnd (by decide)
    | some bs =>
      obtain ⟨_, _, _, _, hret, _⟩ := State.feedLoop_shift (outcomeOf_next.mp h) 0 0x00#8
      exact .unfaulted (hret ▸ nofun)

/-- How an instruction can end (R235). -/
theorem exec_faultEnd (h : exec i s = .next t) : FaultEnd s t := by
  cases i with
  | pushByte b => exact .unfaulted (execPushByte_ret_ne_faulted h)
  | feed bs => exact execFeed_faultEnd h
  | serialize => exact execSerialize_faultEnd h
  | setSar d => exact execSetSar_faultEnd h
  | setProps _ => cases h; exact .guarded (s.building_faultEnd _)
  | setCmd _ => cases h; exact .guarded (.ite (s.raiseFault_faultEnd (by decide)) (s.building_faultEnd _))
  | setStandby _ | setHeartbeat _ _ _ _ _ => cases h; exact s.setPayload_faultEnd _ _
  | getOut | getProps | getPriority | getAck | getVersion | getReserved | getCmd | getLen | getSar | getSarText
  | getStandby | getHeartbeat => cases h; exact s.access_faultEnd _ nofun
  | getStatus => cases h; exact s.returns_faultEnd nofun
  | reset => cases h; exact .unfaulted nofun
  | setSarMode => cases h; exact .frameCommand _ (s.takeFrame.decodeSar_ret_ne_faulted _)
  | setStandbyState | heartbeat => cases h; exact .frameCommand _ nofun

/-- The result "faulted" is a fault newly taken: a faulted block refuses, and `RESET` has no result (R236, R260). -/
theorem fault_eq_zero_of_exec_faulted (h : exec i s = .next t) (hret : t.ret = .faulted) : s.fault = 0x00#8 := by
  by_contra hf
  by_cases hreset : i = .reset
  · subst hreset
    cases h
    cases hret
  · obtain ⟨r, hr, he⟩ := exec_faulted_returns hf hreset
    cases he.symm.trans h
    exact hr hret

end FaultEnds

/-- With no complete frame in `SB`, a code outside R85's table is fetched, its one byte taken (R87). -/
theorem State.fetch_of_unlisted {s : State} {code : Byte} {rest : List Byte} (hp : s.pendingCommand = none)
    (hport : s.port = code :: rest) (hcode : code ∉ hostOpCodes) : s.fetch = .illegal { s with port := rest } := by
  rw [State.fetch, hp, hport, decodeHostOp, decodeCode_of_unlisted rest s.docs hcode]

/-! The statements about exceptions. -/

/-- Settles O16: `FaultEnd` names the two ends of an instruction, and the result tells them apart. -/
theorem faultingOperationWritesOnlyFault : Obligations.FaultingOperationWritesOnlyFault := by
  unfold Obligations.FaultingOperationWritesOnlyFault
  intro i s t h hret
  refine ⟨fault_eq_zero_of_exec_faulted h hret, fun b hi => ?_, ?_⟩
  · exact execPushByte_ret_ne_faulted (hi ▸ h) hret
  · cases exec_faultEnd h with
    | raised hcode ht => exact ⟨_, hcode, ht⟩
    | unfaulted hne => exact absurd hret hne

/-- Settles O17: while faulted every instruction but `RESET` writes its result alone. -/
theorem onlyResetLeavesFaultState : Obligations.OnlyResetLeavesFaultState := by
  unfold Obligations.OnlyResetLeavesFaultState
  intro i s t hf h hreset
  obtain ⟨r, _, he⟩ := exec_faulted_returns hf hreset
  cases he.symm.trans h
  exact s.returns_fault r

/-- Settles O8: the code is fetched as illegal, and the fault register decides between the fault and the refusal. -/
theorem unlistedCodeTakesIllegalOp : Obligations.UnlistedCodeTakesIllegalOp := by
  unfold Obligations.UnlistedCodeTakesIllegalOp
  intro s code rest hw hp hport hcode
  rw [step_of_illegal hw (State.fetch_of_unlisted hp hport hcode)]
  rcases State.illegalOp_cases { s with port := rest } with ⟨hf, he⟩ | ⟨hf, he⟩
  · rw [he, if_neg hf]
    rfl
  · rw [he, if_pos hf]
    rfl

end Sys2Proof.Machine

/-! `RESET` (R260): one unconditional update of the state. -/

namespace Sys2Proof.Machine

/-- R260: `FAULT` is not consulted, so no state refuses `RESET`. -/
theorem exec_reset (s : State) : exec .reset s = .next s.resetBlock := rfl

/-- Settles O13: the parser, MSG and the output buffer of `s.resetBlock` are those of `State.reset`, whose values O12
states; the status, the fault and the result are `resetBlock`'s own laws. -/
theorem resetRestoresResetValues : Obligations.ResetRestoresResetValues := by
  unfold Obligations.ResetRestoresResetValues
  obtain ⟨hidx, hstate, -, hprops, hcmd, htag, -, hob, hlen, hvalid, -, -⟩ := resetStateHoldsResetValues
  exact ⟨rfl, fun s => ⟨s.resetBlock, exec_reset s, rfl, hidx, hstate, hprops, hcmd, htag, hob, hlen, hvalid,
    s.resetBlock_lastStatus, s.resetBlock_fault, s.resetBlock_ret⟩⟩

end Sys2Proof.Machine
